-- ==== Sys2Proof/Word.lean ====
section
/-! DEFINITION. The word types of the block: register words, buffer elements, window offsets, and the small named
alternatives (channel, access size, bus direction, collaborator request) that the spec gives as one-bit or named values. -/

namespace Sys2Proof

/-- One byte of the host window (20_memory.md R81). -/
abbrev Byte := BitVec 8

/-- One element of the double buffer, and one DAC code zero-extended to it (10_state.md R40, R44). -/
abbrev Sample := BitVec 16

/-- One register word, and the data of a bus access (20_memory.md R82, 30_encoding.md R117). -/
abbrev Word := BitVec 32

/-- The width of `REMAIN` and of a step's `SAMPLES` (10_state.md R37, R39). -/
abbrev DWord := BitVec 64

/-- A byte offset in the host window (30_encoding.md R117: 18 bits). -/
abbrev Offset := BitVec 18

/-- A DAC channel (00_scope.md R9, 30_encoding.md R111 `CH`). -/
inductive Channel where
  | ch0
  | ch1
  deriving DecidableEq, Repr

/-- The channel a `CH` bit names: 0 = CH0, 1 = CH1 (30_encoding.md R111). -/
def Channel.ofBit : Bool → Channel
  | false => .ch0
  | true => .ch1

/-- The `CH` bit of a channel (30_encoding.md R111). -/
def Channel.bit : Channel → Bool
  | .ch0 => false
  | .ch1 => true

@[simp] theorem Channel.bit_ofBit (b : Bool) : (Channel.ofBit b).bit = b := by cases b <;> rfl

@[simp] theorem Channel.ofBit_bit (c : Channel) : Channel.ofBit c.bit = c := by cases c <;> rfl

/-- The size of a bus access, 2 or 4 bytes (30_encoding.md R117). -/
inductive AccessSize where
  | half
  | word
  deriving DecidableEq, Repr

/-- The size in bytes (30_encoding.md R117). -/
def AccessSize.bytes : AccessSize → Nat
  | .half => 2
  | .word => 4

/-- The direction of a bus access (30_encoding.md R117). -/
inductive Direction where
  | rd
  | wr
  deriving DecidableEq, Repr

/-- A request to an external collaborator whose outcome is a draw (60_exceptions.md R318). -/
inductive CollabRequest where
  | timerInit
  | dmaStart
  | timerStart
  deriving DecidableEq, Repr

end Sys2Proof
end

