-- ==== Sys2Proof/Config.lean ====
section
/-! DEFINITION. The configuration: the build-time parameters of the block, their derived constants and their constraints
(00_scope.md R10 to R12), and the open values of the spec as constants without a body (60_exceptions.md R318,
20_memory.md R85). -/

namespace Sys2Proof

/-- What follows the last step (00_scope.md R10, 43_step_sequencer.md R236). -/
inductive EndPolicy where
  | halt
  | loop
  deriving DecidableEq, Repr

/-- The build-time parameters of 00_scope.md R10, and the sine table of 40_sine_table.md R141 as a field
(R141 offers "a configuration field that meets rule R141"). -/
structure Config where
  /-- `TABLE_LEN_LOG2` (L). -/
  tableLenLog2 : Nat
  /-- `PHASE_FRAC_BITS` (F). -/
  phaseFracBits : Nat
  /-- `DAC_BITS` (D). -/
  dacBits : Nat
  /-- `BUFFER_SIZE` (B). -/
  bufferSize : Nat
  /-- `SAMPLE_RATE_HZ` (FS). -/
  sampleRate : Nat
  /-- `MAX_STEPS` (M). -/
  maxSteps : Nat
  /-- `END_POLICY`. -/
  endPolicy : EndPolicy
  /-- `SINE[0 .. N-1]` (40_sine_table.md R140). -/
  sine : List Int
  deriving DecidableEq, Repr

namespace Config

/-- `N = 2^L` (00_scope.md R11). -/
def tableLen (c : Config) : Nat := 2 ^ c.tableLenLog2

/-- `W = L + F` (00_scope.md R11). -/
def phaseBits (c : Config) : Nat := c.tableLenLog2 + c.phaseFracBits

/-- `H = B / 2` (00_scope.md R11). -/
def half (c : Config) : Nat := c.bufferSize / 2

/-- `MID = 2^(D-1)` (00_scope.md R11). -/
def mid (c : Config) : Nat := 2 ^ (c.dacBits - 1)

/-- `PEAK = 2^(D-1) - 1` (00_scope.md R11). -/
def peak (c : Config) : Nat := 2 ^ (c.dacBits - 1) - 1

/-- `AMP_FRAC_BITS` (00_scope.md R10: fixed at 16). -/
def ampFracBits : Nat := 16

/-- `AMP_ONE = 2^AF` (00_scope.md R11). -/
def ampOne : Nat := 2 ^ ampFracBits

/-- `NUM_CHANNELS` (00_scope.md R10: fixed at 2). -/
def numChannels : Nat := 2

/-- `HALF_US_NUM = H · 10^6`, the numerator of the half-buffer-fill duration in microseconds (00_scope.md R11). -/
def halfUsNum (c : Config) : Nat := c.half * 1000000

/-- `HALF_US_DEN = FS`, its denominator (00_scope.md R11). -/
def halfUsDen (c : Config) : Nat := c.sampleRate

/-- The legal ranges of 00_scope.md R10 and the constraints of R12. -/
def paramsLegal (c : Config) : Bool :=
  decide (1 ≤ c.tableLenLog2) && decide (c.tableLenLog2 ≤ 16) && decide (c.tableLenLog2 + c.phaseFracBits ≤ 32)
    && decide (2 ≤ c.dacBits) && decide (c.dacBits ≤ 16)
    && decide (c.bufferSize % 2 = 0) && decide (2 ≤ c.bufferSize) && decide (c.bufferSize ≤ 65536)
    && decide (1 ≤ c.sampleRate) && decide (c.sampleRate ≤ 2 ^ 32 - 1)
    && decide (1 ≤ c.maxSteps) && decide (c.maxSteps ≤ 240)

/-- The table has N entries, each in [-PEAK, PEAK] (40_sine_table.md R140, R141). -/
def tableFits (c : Config) : Bool :=
  decide (c.sine.length = c.tableLen) && c.sine.all fun v => decide (-(c.peak : Int) ≤ v) && decide (v ≤ (c.peak : Int))

/-- What a computation can check of a configuration: the parameters are legal and the table has its length and its bound.
That the block's table is the one of R141's formula is asked by `Config.Legal` (Machine/SineTable.lean). -/
def wellFormed (c : Config) : Bool := c.paramsLegal && c.tableFits

/-! Open values: constants without a body. Nothing in Lean can prove what they are. -/

/-- Power-on contents of the byte at window offset `addr` of `BUF`, after the power-on reset number `epoch`
(70_reset_and_hazards.md R340, 60_exceptions.md R318: a draw). A FREE VALUE (log 9). -/
opaque powerOnByte (epoch addr : Nat) : Byte

/-- Power-on value of the DAC data register of a channel (60_exceptions.md R318: a draw). A FREE VALUE (log 10). -/
opaque powerOnDac (epoch : Nat) (ch : Channel) : Sample

/-- Outcome of the collaborator request number `n`, true for success (60_exceptions.md R318: a draw). A FREE VALUE
(log 11). -/
opaque collaboratorOk (r : CollabRequest) (n : Nat) : Bool

/-- `BLOCK_BASE`, the host address of the window (20_memory.md R85: open). A FREE VALUE (log 19). -/
opaque blockBase : Nat

end Config

end Sys2Proof
end

