-- ==== Sys2Proof/Syntax.lean ====
section
/-! DEFINITION. The instruction set: one constructor for each row of spec/opcode_table.json (30_encoding.md R112, R116,
R117): five commands, three events, two bus accesses. -/

namespace Sys2Proof

/-- The commands, events and bus accesses of the block. -/
inductive Instr where
  /-- `INIT` (44_controller.md R261). -/
  | init
  /-- `SET_SEQUENCE`, `count` = COUNT (44_controller.md R264). -/
  | setSequence (count : BitVec 8)
  /-- `START_OUTPUT`, `ch` = CH (44_controller.md R270). -/
  | startOutput (ch : Channel)
  /-- `STOP_OUTPUT` (44_controller.md R263). -/
  | stopOutput
  /-- `IS_RUNNING` (44_controller.md R275). -/
  | isRunning
  /-- `EV_TICK`, the PACER's sample tick (42_buffer_refill.md R192). -/
  | evTick
  /-- `EV_HT`, service of half-transfer-complete (42_buffer_refill.md R198). -/
  | evHt
  /-- `EV_TC`, service of transfer-complete (42_buffer_refill.md R199). -/
  | evTc
  /-- `RD`, a host read (20_memory.md R83). -/
  | rd (size : AccessSize) (offset : Offset)
  /-- `WR`, a host write (20_memory.md R84). -/
  | wr (size : AccessSize) (offset : Offset) (data : Word)
  deriving DecidableEq, Repr

end Sys2Proof
end

