-- ==== Sys2Proof/WellFormed.lean ====
section
/-! DEFINITION. Well-formed instructions: the host accesses that 20_memory.md R82 admits. Every command and event is
well-formed: no operand value of theirs is illegal (30_encoding.md R113). -/

namespace Sys2Proof

/-- Size of the host window in bytes, offsets 0x00000 to 0x2FFFF (20_memory.md R80). -/
abbrev windowSize : Nat := 0x30000

/-- First offset of the `BUF` window (10_state.md R45). -/
abbrev bufBase : Nat := 0x1000

/-- A 32-bit access: at a multiple of 4, anywhere in the window (20_memory.md R82). -/
def wordAccessOk (addr : Nat) : Bool := decide (addr % 4 = 0) && decide (addr < windowSize)

/-- A 16-bit read: at an even offset of the `BUF` window (20_memory.md R82). -/
def halfReadOk (c : Config) (addr : Nat) : Bool :=
  decide (addr % 2 = 0) && decide (bufBase ≤ addr) && decide (addr < bufBase + 2 * c.bufferSize)

/-- The host accesses the block admits (20_memory.md R82); there is no 16-bit write. -/
def accessOk (c : Config) : Direction → AccessSize → Nat → Bool
  | .rd, .word, addr => wordAccessOk addr
  | .rd, .half, addr => halfReadOk c addr
  | .wr, .word, addr => wordAccessOk addr
  | .wr, .half, _ => false

/-- An instruction the block has a step for, as far as its operands say (20_memory.md R82, 30_encoding.md R113). -/
def Instr.wf (c : Config) : Instr → Bool
  | .init => true
  | .setSequence _ => true
  | .startOutput _ => true
  | .stopOutput => true
  | .isRunning => true
  | .evTick => true
  | .evHt => true
  | .evTc => true
  | .rd size offset => accessOk c .rd size offset.toNat
  | .wr size offset _ => accessOk c .wr size offset.toNat

end Sys2Proof
end

