-- ==== Sys2Proof/Decode.lean ====
section
/-! DEFINITION. The three formats (30_encoding.md R110, R111, R116, R117) as packets, the decoder, total on every packet
and rejecting by name, and the encoder, written from the same tables. -/

namespace Sys2Proof

/-- One raw transaction in one of the block's three formats (30_encoding.md R110). `size` is the number of bytes as the
bus gives it, so that a byte access can be presented, and rejected (20_memory.md R82). -/
inductive Packet where
  /-- `CMD`: a word written to offset 0x000. -/
  | cmd (word : Word)
  /-- `EVT`: a code of the event interface. -/
  | evt (code : BitVec 2)
  /-- `BUS`: a host access. -/
  | bus (dir : Direction) (size : BitVec 3) (offset : Offset) (data : Word)
  deriving DecidableEq, Repr

/-- What a `CMD` word decodes to (30_encoding.md R114); `illegal` carries `OPC`. -/
inductive Command where
  | init
  | setSequence (count : BitVec 8)
  | startOutput (ch : Channel)
  | stopOutput
  | isRunning
  | illegal (opc : Byte)
  deriving DecidableEq, Repr

/-- Why a packet decodes to no instruction of the table. -/
inductive DecodeError where
  /-- The `CMD` word is `ILLEGAL(opc)` (30_encoding.md R114, R115); it executes as 60_exceptions.md R303. -/
  | illegalCommand (opc : Byte)
  /-- The reserved event code 0b11 (30_encoding.md R116). -/
  | reservedEvent
  /-- A bus size other than 2 or 4, or an offset outside the window (20_memory.md R82, 30_encoding.md R117). -/
  | badAccess
  deriving DecidableEq, Repr

/-- `OPC`, bits [7:0] of a `CMD` word (30_encoding.md R111). -/
def cmdOpc (v : Word) : Byte := v.extractLsb' 0 8

/-- `COUNT`, bits [23:16] of a `CMD` word (30_encoding.md R111). -/
def cmdCount (v : Word) : BitVec 8 := v.extractLsb' 16 8

/-- `CH`, bit [8] of a `CMD` word (30_encoding.md R111). -/
def cmdChannel (v : Word) : Channel := Channel.ofBit (v.getLsbD 8)

/-- Command decode (30_encoding.md R114). -/
def decodeCmd (v : Word) : Command :=
  if cmdOpc v = 0x01#8 ∧ v = 0x00000001#32 then .init
  else if cmdOpc v = 0x02#8 ∧ v &&& 0xFF00FFFF#32 = 0x00000002#32 then .setSequence (cmdCount v)
  else if cmdOpc v = 0x03#8 ∧ v &&& 0xFFFFFEFF#32 = 0x00000003#32 then .startOutput (cmdChannel v)
  else if cmdOpc v = 0x04#8 ∧ v = 0x00000004#32 then .stopOutput
  else if cmdOpc v = 0x05#8 ∧ v = 0x00000005#32 then .isRunning
  else .illegal (cmdOpc v)

/-- The instruction a decoded command is; `ILLEGAL` is none of the table. -/
def Command.toInstr : Command → Except DecodeError Instr
  | .init => .ok .init
  | .setSequence n => .ok (.setSequence n)
  | .startOutput ch => .ok (.startOutput ch)
  | .stopOutput => .ok .stopOutput
  | .isRunning => .ok .isRunning
  | .illegal opc => .error (.illegalCommand opc)

/-- Event codes (30_encoding.md R116). -/
def decodeEvt (code : BitVec 2) : Except DecodeError Instr :=
  if code = 0b00#2 then .ok .evTick
  else if code = 0b01#2 then .ok .evHt
  else if code = 0b10#2 then .ok .evTc
  else .error .reservedEvent

/-- The access size a number of bytes names (30_encoding.md R117: 2 or 4). -/
def decodeSize (size : BitVec 3) : Option AccessSize :=
  if size = 2#3 then some .half
  else if size = 4#3 then some .word
  else none

/-- Bus transactions (30_encoding.md R117). -/
def decodeBus (dir : Direction) (size : BitVec 3) (offset : Offset) (data : Word) : Except DecodeError Instr :=
  match decodeSize size with
  | none => .error .badAccess
  | some sz =>
    if windowSize ≤ offset.toNat then .error .badAccess
    else match dir with
      | .rd => .ok (.rd sz offset)
      | .wr => .ok (.wr sz offset data)

/-- The decoder, total on every packet. -/
def decode : Packet → Except DecodeError Instr
  | .cmd word => (decodeCmd word).toInstr
  | .evt code => decodeEvt code
  | .bus dir size offset data => decodeBus dir size offset data

/-! The encoder, from the tables of 30_encoding.md R112, R116 and R117. -/

/-- The bus's number of bytes of an access size (30_encoding.md R117). -/
def encodeSize : AccessSize → BitVec 3
  | .half => 2#3
  | .word => 4#3

/-- The `CMD` word of `SET_SEQUENCE` (30_encoding.md R112, R119). -/
def setSequenceWord (count : BitVec 8) : Word := 0x00000002#32 ||| (count.setWidth 32 <<< 16)

/-- The `CMD` word of `START_OUTPUT` (30_encoding.md R112, R119). -/
def startOutputWord (ch : Channel) : Word := 0x00000003#32 ||| ((BitVec.ofBool ch.bit).setWidth 32 <<< 8)

/-- The encoder. -/
def encode : Instr → Packet
  | .init => .cmd 0x00000001#32
  | .setSequence count => .cmd (setSequenceWord count)
  | .startOutput ch => .cmd (startOutputWord ch)
  | .stopOutput => .cmd 0x00000004#32
  | .isRunning => .cmd 0x00000005#32
  | .evTick => .evt 0b00#2
  | .evHt => .evt 0b01#2
  | .evTc => .evt 0b10#2
  | .rd size offset => .bus .rd (encodeSize size) offset 0#32
  | .wr size offset data => .bus .wr (encodeSize size) offset data

/-! The same packets as numbers, for the host's questions about the opcode table. The spec gives the BUS format no bit
positions; the layout offset [17:0], size [20:18], dir [21], zero [23:22], data [55:24] is a DESIGN CHOICE (log 17). -/

/-- The direction a bit names. -/
def directionOfBit : Bool → Direction
  | false => .rd
  | true => .wr

/-- The packet whose table bits are `w`: up to 8 bits an `EVT` code, 32 bits a `CMD` word, any other number a `BUS`
transaction; none where a bit stands above the format's last one. -/
def packetOfBits (nbits w : Nat) : Option Packet :=
  if nbits ≤ 8 then
    if w < 4 then some (.evt (BitVec.ofNat 2 w)) else none
  else if nbits = 32 then
    if w < 2 ^ 32 then some (.cmd (BitVec.ofNat 32 w)) else none
  else if w < 2 ^ 56 ∧ w / 2 ^ 22 % 4 = 0 then
    some (.bus (directionOfBit (w / 2 ^ 21 % 2 == 1)) (BitVec.ofNat 3 (w / 2 ^ 18)) (BitVec.ofNat 18 w)
      (BitVec.ofNat 32 (w / 2 ^ 24)))
  else none

/-- The table bits of a packet, and how many. -/
def bitsOfPacket : Packet → Nat × Nat
  | .cmd word => (32, word.toNat)
  | .evt code => (8, code.toNat)
  | .bus .rd size offset data => (56, offset.toNat + 2 ^ 18 * size.toNat + 2 ^ 24 * data.toNat)
  | .bus .wr size offset data => (56, offset.toNat + 2 ^ 18 * size.toNat + 2 ^ 21 + 2 ^ 24 * data.toNat)

/-- The instruction the decoder reads from an instruction whose table bits are `w`. -/
def decodeTableWord (nbits w : Nat) : Option Instr :=
  match packetOfBits nbits w with
  | none => none
  | some p => (decode p).toOption

end Sys2Proof
end

