-- ==== Sys2Proof/Machine/SineTable.lean ====
section
/-! DEFINITION. The sine table (40_sine_table.md): the literal tables of rules R144 and R145, the formula of R141 that a
configuration's table meets, the table read of R143, and the reference and mini configurations (00_scope.md R10,
95_test_vectors.md). -/

namespace Sys2Proof

namespace Machine

/-! The rows of 40_sine_table.md R144, two a definition: `SINE[32q .. 32q+31]`. -/

def sineRows0 : List Int :=
  [0, 50, 100, 151, 201, 251, 300, 350, 399, 449, 497, 546, 594, 642, 690, 737]
    ++ [783, 830, 875, 920, 965, 1009, 1052, 1095, 1137, 1179, 1219, 1259, 1299, 1337, 1375, 1411]

def sineRows1 : List Int :=
  [1447, 1483, 1517, 1550, 1582, 1614, 1644, 1674, 1702, 1729, 1756, 1781, 1805, 1828, 1850, 1871]
    ++ [1891, 1910, 1927, 1944, 1959, 1973, 1986, 1997, 2008, 2017, 2025, 2032, 2037, 2041, 2045, 2046]

def sineRows2 : List Int :=
  [2047, 2046, 2045, 2041, 2037, 2032, 2025, 2017, 2008, 1997, 1986, 1973, 1959, 1944, 1927, 1910]
    ++ [1891, 1871, 1850, 1828, 1805, 1781, 1756, 1729, 1702, 1674, 1644, 1614, 1582, 1550, 1517, 1483]

def sineRows3 : List Int :=
  [1447, 1411, 1375, 1337, 1299, 1259, 1219, 1179, 1137, 1095, 1052, 1009, 965, 920, 875, 830]
    ++ [783, 737, 690, 642, 594, 546, 497, 449, 399, 350, 300, 251, 201, 151, 100, 50]

def sineRows4 : List Int :=
  [0, -50, -100, -151, -201, -251, -300, -350, -399, -449, -497, -546, -594, -642, -690, -737]
    ++ [-783, -830, -875, -920, -965, -1009, -1052, -1095, -1137, -1179, -1219, -1259, -1299, -1337, -1375, -1411]

def sineRows5 : List Int :=
  [-1447, -1483, -1517, -1550, -1582, -1614, -1644, -1674, -1702, -1729, -1756, -1781, -1805, -1828, -1850, -1871]
    ++ [-1891, -1910, -1927, -1944, -1959, -1973, -1986, -1997, -2008, -2017, -2025, -2032, -2037, -2041, -2045, -2046]

def sineRows6 : List Int :=
  [-2047, -2046, -2045, -2041, -2037, -2032, -2025, -2017, -2008, -1997, -1986, -1973, -1959, -1944, -1927, -1910]
    ++ [-1891, -1871, -1850, -1828, -1805, -1781, -1756, -1729, -1702, -1674, -1644, -1614, -1582, -1550, -1517, -1483]

def sineRows7 : List Int :=
  [-1447, -1411, -1375, -1337, -1299, -1259, -1219, -1179, -1137, -1095, -1052, -1009, -965, -920, -875, -830]
    ++ [-783, -737, -690, -642, -594, -546, -497, -449, -399, -350, -300, -251, -201, -151, -100, -50]

/-- `SINE` of the reference configuration (40_sine_table.md R144). -/
def sineReference : List Int :=
  sineRows0 ++ sineRows1 ++ sineRows2 ++ sineRows3 ++ sineRows4 ++ sineRows5 ++ sineRows6 ++ sineRows7

/-- `SINE` of the mini configuration (40_sine_table.md R145). -/
def sineMini : List Int :=
  [0, 49, 90, 117, 127, 117, 90, 49, 0, -49, -90, -117, -127, -117, -90, -49]

/-- Table read `SINE[idx]` (40_sine_table.md R143). Every index that synthesis forms is below N (41_phase_accumulator.md
R165); an index past the table's end, which no configuration of the block has, reads 0 (log 14). -/
def sineAt (c : Config) (idx : Nat) : Int := c.sine.getD idx 0

end Machine

/-- The reference configuration (00_scope.md R10). -/
def Config.reference : Config where
  tableLenLog2 := 8
  phaseFracBits := 24
  dacBits := 12
  bufferSize := 500
  sampleRate := 1000000
  maxSteps := 16
  endPolicy := .halt
  sine := Machine.sineReference

/-- The mini configuration of 95_test_vectors.md, with either end policy. -/
def Config.mini (policy : EndPolicy) : Config where
  tableLenLog2 := 4
  phaseFracBits := 4
  dacBits := 8
  bufferSize := 8
  sampleRate := 4000
  maxSteps := 4
  endPolicy := policy
  sine := Machine.sineMini

/-- The table holds N entries and each is `round_half_away(PEAK * sin(2 * pi * i / N))` with the exact real sine
(40_sine_table.md R141, 00_scope.md R13). A proposition about the reals: no decision procedure evaluates it. -/
def Config.SineMeetsFormula (c : Config) : Prop :=
  c.sine.length = c.tableLen ∧
    ∀ i : Nat, i < c.tableLen → ∀ x : ℝ, x = (c.peak : ℝ) * Real.sin (2 * Real.pi * (i : ℝ) / (c.tableLen : ℝ)) →
      Machine.sineAt c i = if 0 ≤ x then ⌊x + 1 / 2⌋ else -⌊-x + 1 / 2⌋

/-- A configuration of this block: parameters that meet 00_scope.md R10 and R12, and the sine table of 40_sine_table.md
R141. -/
abbrev Config.Legal (c : Config) : Prop := c.paramsLegal = true ∧ c.SineMeetsFormula

/-- Construction of a configuration: a table needs the proof that it meets R141, and parameters that break 00_scope.md R12
(or R10's ranges) are refused. -/
def Config.build (c : Config) (_table : c.SineMeetsFormula) : Option Config := if c.paramsLegal then some c else none

end Sys2Proof
end

