-- ==== Sys2Proof/Machine/State.lean ====
section
/-! DEFINITION. The state of the block as plain data (10_state.md R31), its reset (70_reset_and_hazards.md R340, R341), and
the reasons a step can stop. -/

namespace Sys2Proof.Machine

/-- The sequencer state (10_state.md R36); the step of `Active(i)` is `STEP_INDEX`. -/
inductive SeqState where
  | notConfigured
  | configured
  | active
  | finished
  deriving DecidableEq, Repr

/-- A half of the double buffer (42_buffer_refill.md R190). -/
inductive Half where
  | first
  | second
  deriving DecidableEq, Repr

/-- A DMA event (10_state.md R43). -/
inductive DmaEvent where
  | ht
  | tc
  deriving DecidableEq, Repr

/-- The model faults (60_exceptions.md R316): sticky names recorded in `FAULTS`. They are state of the spec's, not stops:
the step that adds one goes on. -/
inductive ModelFault where
  | deadlineMiss
  | paramsNotActive
  | advanceNotActive
  | advanceOverrun
  | refillWhenIdle
  deriving DecidableEq, Repr

/-- The set `FAULTS` (10_state.md R54), one Bool for each name of 60_exceptions.md R316 (log 16). -/
structure FaultSet where
  deadlineMiss : Bool
  paramsNotActive : Bool
  advanceNotActive : Bool
  advanceOverrun : Bool
  refillWhenIdle : Bool
  deriving DecidableEq, Repr

/-- One staging slot `STAGE[k]` (10_state.md R50). -/
structure StageSlot where
  freq : Word
  amp : Word
  dur : Word
  deriving DecidableEq, Repr

/-- One stored step `SEQ[k]` (10_state.md R37). `inc` holds a W-bit number (log 13). -/
structure StepRec where
  freq : Word
  amp : Word
  dur : Word
  inc : Word
  samples : DWord
  deriving DecidableEq, Repr

/-- The zero staging slot (70_reset_and_hazards.md R341). -/
def StageSlot.zero : StageSlot := ⟨0#32, 0#32, 0#32⟩

/-- The zero record, what an unused entry of `SEQ` holds (10_state.md R37). -/
def StepRec.zero : StepRec := ⟨0#32, 0#32, 0#32, 0#32, 0#64⟩

/-- The empty set of model faults. -/
def FaultSet.empty : FaultSet := ⟨false, false, false, false, false⟩

/-- The bytes of the `BUF` window that a refill has written, by window offset, in one canonical form: offsets strictly
rising. An offset not listed has not been written since power-on, and no byte equals that (log 9). -/
abbrev Memory := List Host.Cell

/-- The canonical form: offsets strictly rising, hence no repeats. -/
abbrev Memory.wf (m : Memory) : Prop := m.Pairwise fun x y => x.1 < y.1

/-- The collaborator outcomes that a `draw` directive has fixed and no command has used yet (30_encoding.md R118). -/
structure FixedOutcomes where
  timerInit : Option Bool
  dmaStart : Option Bool
  timerStart : Option Bool
  deriving DecidableEq, Repr

/-- One slot of the schedule: which agent steps, or what the outside does (00_scope.md R4, R5, 30_encoding.md R118). -/
inductive Slot where
  /-- A raw transaction is presented: a host access, a command word, or an event code. -/
  | packet (p : Packet)
  /-- The ISR agent's turn: it services the head of `PENDING` (42_buffer_refill.md R197). -/
  | isr
  /-- A `draw` directive: the next outcome of that request is fixed (30_encoding.md R118). -/
  | draw (r : CollabRequest) (ok : Bool)
  /-- Power-on reset is applied (70_reset_and_hazards.md R340). -/
  | reset
  deriving DecidableEq, Repr

/-- The state of the block: exactly the tuple of 10_state.md R31, and the model-only fields of R54. -/
structure BlockState where
  /-- `RUNNING` (10_state.md R34). -/
  running : Bool
  /-- `CHANNEL` (10_state.md R35). -/
  channel : Channel
  /-- `SEQ_STATE` (10_state.md R36). -/
  seqState : SeqState
  /-- `STEP_INDEX` (10_state.md R39). -/
  stepIndex : BitVec 8
  /-- `REMAIN` (10_state.md R39). -/
  remain : DWord
  /-- `PHASE`, a W-bit number (10_state.md R39; log 13). -/
  phase : Word
  /-- `SEQ_COUNT` (10_state.md R37). -/
  seqCount : BitVec 8
  /-- `SEQ[0 .. M-1]` (10_state.md R37). -/
  seq : List StepRec
  /-- `STAGE[0 .. M-1]` (10_state.md R50). -/
  stage : List StageSlot
  /-- `BUF[0 .. B-1]` as bytes of its window (10_state.md R40; log 9). -/
  mem : Memory
  /-- `DMA_POS` (10_state.md R42). -/
  dmaPos : BitVec 16
  /-- `PENDING`, oldest first (10_state.md R43). -/
  pending : List DmaEvent
  /-- `LAST_HALF` (10_state.md R43). -/
  lastHalf : Option Half
  /-- `INIT_DONE` (10_state.md R41). -/
  initDone : Bool
  /-- `DONE` (10_state.md R41). -/
  done : Bool
  /-- `UNDERRUN` (10_state.md R41). -/
  underrun : Bool
  /-- `RESULT` (10_state.md R47). -/
  result : Word
  /-- `DAC_OUT[0]`, a D-bit code (10_state.md R44; log 13). -/
  dacOut0 : Sample
  /-- `DAC_OUT[1]`, a D-bit code (10_state.md R44; log 13). -/
  dacOut1 : Sample
  /-- `FAULTS` (10_state.md R54). -/
  faults : FaultSet
  /-- `TRACE`, oldest first (10_state.md R54). -/
  trace : List (Channel × Sample)
  deriving DecidableEq, Repr

/-- What stands outside the block: the arguments that 00_scope.md R10 and 60_exceptions.md R318 give a model (the
configuration, the outcomes and power-on draws), what steps next (R5), and what the host has read. None of it is state of
the block. -/
structure Outside where
  /-- The configuration (00_scope.md R10), an argument of the model: no step changes it (10_state.md R30; log 1). -/
  cfg : Config
  /-- What steps next, in order (log 3). -/
  schedule : List Slot
  /-- Outcomes fixed by `draw` directives (log 11). -/
  fixed : FixedOutcomes
  /-- Number of free collaborator outcomes taken (log 11). -/
  drawCount : Nat
  /-- Number of power-on resets before this one (log 12). -/
  epoch : Nat
  /-- The data of the last host read (log 8). -/
  readData : Word
  deriving DecidableEq, Repr

/-- What a step takes and gives: the block's state, and beside it what stands outside, which the host's interface has no
other place for (log 1). -/
structure State extends BlockState, Outside
  deriving DecidableEq, Repr

/-- Why the machine stops with a fault: an agent has no step. -/
inductive Fault where
  /-- Raised by `execRd`, `execWr` and the decoder's `badAccess`: a host access that 20_memory.md R82 does not admit ("The
  HOST agent is stuck at such an access"). Safe (log 6). -/
  | hostStuck
  /-- Raised by `execEvTick`: a tick while `RUNNING = 0`, when the PACER has no step (42_buffer_refill.md R191). Safe
  (log 5). -/
  | pacerNotEnabled
  /-- Raised by `execEvHt`, `execEvTc` and an `isr` slot: a service while `PENDING` is empty, when the ISR has no step
  (42_buffer_refill.md R196). Safe (log 5). -/
  | isrNotEnabled
  /-- Raised by `execEvHt` and `execEvTc`: a service of an event that is not the head of `PENDING`, which the ISR cannot
  choose (42_buffer_refill.md R197). Safe (log 5). -/
  | eventNotHead
  deriving DecidableEq, Repr

/-- Why a step is refused. -/
inductive Refusal where
  /-- Raised by an arm of `exec` whose instruction has no meaning yet. Safe. -/
  | notModelled (mnemonic : String)
  /-- Raised by the decoder: event code 0b11, which no agent produces ("a model refuses a trace that contains it",
  30_encoding.md R116). Safe (log 7). -/
  | reservedEvent
  deriving DecidableEq, Repr

/-- The block's state right after power-on reset number `epoch`, for a configuration `c` (70_reset_and_hazards.md R340,
R341): every register 0, `DAC_OUT` and `BUF` free values (log 9, 10). -/
def BlockState.initial (c : Config) (epoch : Nat) : BlockState where
  running := false
  channel := .ch0
  seqState := .notConfigured
  stepIndex := 0#8
  remain := 0#64
  phase := 0#32
  seqCount := 0#8
  seq := List.replicate c.maxSteps StepRec.zero
  stage := List.replicate c.maxSteps StageSlot.zero
  mem := []
  dmaPos := 0#16
  pending := []
  lastHalf := none
  initDone := false
  done := false
  underrun := false
  result := 0#32
  dacOut0 := BitVec.ofNat 16 ((Config.powerOnDac epoch .ch0).toNat % 2 ^ c.dacBits)
  dacOut1 := BitVec.ofNat 16 ((Config.powerOnDac epoch .ch1).toNat % 2 ^ c.dacBits)
  faults := FaultSet.empty
  trace := []

/-- The state right after power-on reset number `epoch`, with nothing scheduled (log 1, 3, 8, 11, 12). -/
def State.initial (c : Config) (epoch : Nat) : State where
  toBlockState := BlockState.initial c epoch
  cfg := c
  schedule := []
  fixed := ⟨none, none, none⟩
  drawCount := 0
  epoch := epoch
  readData := 0#32

/-- The machine right after its first power-on reset, in the reference configuration (70_reset_and_hazards.md R341,
00_scope.md R10; log 1). -/
def State.reset : State := State.initial Config.reference 0

end Sys2Proof.Machine
end

