-- ==== Sys2Proof/Machine/Flags.lean ====
section
/-! DEFINITION. The words and flags the host reads: error codes and `RESULT` (10_state.md R47, 60_exceptions.md R300,
R301), `STATUS` (10_state.md R48), the parameter registers (R51), and the underrun test (42_buffer_refill.md R194). -/

namespace Sys2Proof.Machine

/-- The errors of a command (60_exceptions.md R301). -/
inductive CommandError where
  | configurationRejected
  | notConfigured
  | alreadyRunning
  | hardwareStartFailure
  | illegalCommand
  deriving DecidableEq, Repr

/-- `RESULT.ERR` of an error (60_exceptions.md R301). -/
def CommandError.code : CommandError → BitVec 4
  | .configurationRejected => 1#4
  | .notConfigured => 2#4
  | .alreadyRunning => 3#4
  | .hardwareStartFailure => 4#4
  | .illegalCommand => 5#4

/-- The layout of `RESULT`: `LAST_OPC` [31:24], `VALUE` [16], `OK` [8], `ERR` [3:0], the rest 0 (10_state.md R47). -/
def resultWord (opc : Byte) (value ok : Bool) (err : BitVec 4) : Word :=
  opc ++ 0#7 ++ BitVec.ofBool value ++ 0#7 ++ BitVec.ofBool ok ++ 0#4 ++ err

/-- `RESULT` after `ok(value)` (60_exceptions.md R300). -/
def okWord (opc : Byte) (value : Bool) : Word := resultWord opc value true 0#4

/-- `RESULT` after `raise E` (60_exceptions.md R300). -/
def errWord (opc : Byte) (e : CommandError) : Word := resultWord opc false false e.code

/-- `OPC` of each command (30_encoding.md R112). -/
def opcInit : Byte := 0x01#8
def opcSetSequence : Byte := 0x02#8
def opcStartOutput : Byte := 0x03#8
def opcStopOutput : Byte := 0x04#8
def opcIsRunning : Byte := 0x05#8

/-- `SEQ_STATE` as the host reads it (10_state.md R36). -/
def SeqState.code : SeqState → BitVec 2
  | .notConfigured => 0#2
  | .configured => 1#2
  | .active => 2#2
  | .finished => 3#2

/-- `LAST_HALF` as the host reads it (10_state.md R43). -/
def lastHalfCode : Option Half → BitVec 2
  | none => 0#2
  | some .first => 1#2
  | some .second => 2#2

/-- The half an event names: HT the First, TC the Second (42_buffer_refill.md R190). -/
def DmaEvent.half : DmaEvent → Half
  | .ht => .first
  | .tc => .second

/-- The event code of an ISR step (30_encoding.md R116). -/
def DmaEvent.code : DmaEvent → BitVec 2
  | .ht => 0b01#2
  | .tc => 0b10#2

/-- `STATUS` (10_state.md R48). -/
def State.statusWord (s : State) : Word :=
  0#8 ++ s.stepIndex ++ 0#4 ++ lastHalfCode s.lastHalf
    ++ BitVec.ofBool (s.pending.head? == some .tc)
    ++ BitVec.ofBool (s.pending.contains .tc)
    ++ BitVec.ofBool (s.pending.contains .ht)
    ++ BitVec.ofBool s.underrun ++ BitVec.ofBool s.done ++ BitVec.ofBool s.initDone
    ++ s.seqState.code ++ BitVec.ofBool s.channel.bit ++ BitVec.ofBool s.running

/-- `END_POLICY` as the host reads it: 0 = HALT, 1 = LOOP (10_state.md R51). -/
def endPolicyBit : EndPolicy → Bool
  | .halt => false
  | .loop => true

/-- `PARAM0` = M [31:24], D [23:16], F [15:8], L [7:0] (10_state.md R51). -/
def param0 (c : Config) : Word :=
  BitVec.ofNat 8 c.maxSteps ++ BitVec.ofNat 8 c.dacBits ++ BitVec.ofNat 8 c.phaseFracBits ++ BitVec.ofNat 8 c.tableLenLog2

/-- `PARAM1` = END_POLICY [24], B [16:0], the rest 0 (10_state.md R51). -/
def param1 (c : Config) : Word :=
  0#7 ++ BitVec.ofBool (endPolicyBit c.endPolicy) ++ 0#7 ++ BitVec.ofNat 17 c.bufferSize

/-- `PARAM2` = FS (10_state.md R51). -/
def param2 (c : Config) : Word := BitVec.ofNat 32 c.sampleRate

/-- The DMA is about to read a half that it has consumed and that has not been refilled (42_buffer_refill.md R194). -/
def State.underrunAt (s : State) (j : Nat) : Bool :=
  (decide (j < s.cfg.half) && s.pending.contains .ht) || (decide (s.cfg.half ≤ j) && s.pending.contains .tc)

end Sys2Proof.Machine
end

