-- ==== Sys2Proof/Machine/Operands.lean ====
section
/-! DEFINITION. The arithmetic of the block on its operands: the primitives of 00_scope.md R13 and R14, the phase increment
and the sample synthesis (41_phase_accumulator.md), the duration test and the step length (43_step_sequencer.md R231, R232). -/

namespace Sys2Proof.Machine

/-- `round_half_up(p / q)` for q > 0 (00_scope.md R13). -/
def roundHalfUp (p q : Nat) : Nat := (2 * p + q) / (2 * q)

/-- `clamp(v, lo, hi)` (00_scope.md R13). -/
def clamp (v lo hi : Int) : Int := min (max v lo) hi

/-- `asr(v, k)`, the arithmetic right shift, floor(v / 2^k) (00_scope.md R14). -/
def asr (v : Int) (k : Nat) : Int := v / 2 ^ k

/-- `phase_increment(f)` (41_phase_accumulator.md R160), as a number. -/
def phaseIncrement (c : Config) (f : Nat) : Nat :=
  roundHalfUp (f * c.tableLen * 2 ^ c.phaseFracBits) c.sampleRate % 2 ^ c.phaseBits

/-- Phase advance: the exact sum, reduced modulo 2^W (41_phase_accumulator.md R164). -/
def advancePhase (c : Config) (phase inc : Word) : Word :=
  BitVec.ofNat 32 ((phase.toNat + inc.toNat) % 2 ^ c.phaseBits)

/-- Table index: the top L bits of the phase, by truncation (41_phase_accumulator.md R165). -/
def tableIndex (c : Config) (phase : Word) : Nat := phase.toNat / 2 ^ c.phaseFracBits

/-- The amplitude, a signed Q16.16 pattern, clamped to [0, 1.0] (41_phase_accumulator.md R166). -/
def clampAmp (amp : Word) : Int := clamp amp.toInt 0 (Config.ampOne : Int)

/-- Scaling by the clamped amplitude: the floor of the exact signed product over 65536 (41_phase_accumulator.md R167). -/
def scaleSample (v a : Int) : Int := asr (v * a) Config.ampFracBits

/-- The code of a phase and an amplitude, as an integer: `MID + s` (41_phase_accumulator.md R167). -/
def codeAt (c : Config) (phase amp : Word) : Int :=
  (c.mid : Int) + scaleSample (sineAt c (tableIndex c phase)) (clampAmp amp)

/-- `next_sample(inc, amp)` from `PHASE = phase`: the code, zero-extended, and the new `PHASE`
(41_phase_accumulator.md R163: advance, then index). -/
def nextSample (c : Config) (phase inc amp : Word) : Sample × Word :=
  (BitVec.ofInt 16 (codeAt c (advancePhase c phase inc) amp), advancePhase c phase inc)

/-- `synth(P, inc, amp, n)`: the codes of n successive calls of `next_sample` (41_phase_accumulator.md R169). -/
def synth (c : Config) (inc amp : Word) : Word → Nat → List Sample
  | _, 0 => []
  | phase, n + 1 => (nextSample c phase inc amp).1 :: synth c inc amp (nextSample c phase inc amp).2 n

/-- `PHASE` after n successive calls of `next_sample` (41_phase_accumulator.md R169). -/
def phaseAfter (c : Config) (inc : Word) : Word → Nat → Word
  | phase, 0 => phase
  | phase, n + 1 => phaseAfter c inc (advancePhase c phase inc) n

/-- The mid-scale code `zext_16(MID)` (42_buffer_refill.md R201). -/
def midSample (c : Config) : Sample := BitVec.ofNat 16 c.mid

/-- The code the DMA transfers of a buffer element: bits [D-1:0] (42_buffer_refill.md R192). -/
def dacCode (c : Config) (v : Sample) : Sample := BitVec.ofNat 16 (v.toNat % 2 ^ c.dacBits)

/-- `duration_ok(d)`: a positive multiple of the half-buffer-fill duration, in exact integers
(43_step_sequencer.md R232). -/
def durationOk (c : Config) (d : Word) : Bool :=
  decide (0 < d.toNat) && decide (d.toNat * c.halfUsDen % c.halfUsNum = 0)

/-- `step_samples(d) = d * FS / 10^6` (43_step_sequencer.md R231). -/
def stepSamples (c : Config) (d : Word) : DWord := BitVec.ofNat 64 (d.toNat * c.sampleRate / 1000000)

end Sys2Proof.Machine
end

