-- ==== Sys2Proof/Machine/Ops.lean ====
section
/-! DEFINITION. The named operations over memory and registers: the bytes of the `BUF` window and its elements, indexed
records, model faults, the two ends of a command (60_exceptions.md R300), collaborator outcomes (R318), raising and taking
a DMA event (42_buffer_refill.md R193, R197), stop effects (44_controller.md R262) and power-on reset
(70_reset_and_hazards.md R340). -/

namespace Sys2Proof.Machine

/-! Memory. -/

/-- The byte written at an offset, if any has been since power-on. -/
def Memory.get? : Memory → Nat → Option Byte
  | [], _ => none
  | (b, v) :: rest, a => if b = a then some v else Memory.get? rest a

/-- Consecutive cells from an offset. -/
def cellsFrom : Nat → List Byte → Memory
  | _, [] => []
  | a, b :: bs => (a, b) :: cellsFrom (a + 1) bs

/-- Store bytes at consecutive offsets from `base`; every other offset keeps what it held. -/
def Memory.store (m : Memory) (base : Nat) (bytes : List Byte) : Memory :=
  m.filter (fun x => decide (x.1 < base)) ++ cellsFrom base bytes
    ++ m.filter (fun x => decide (base + bytes.length ≤ x.1))

/-- The byte at a window offset of `BUF`: the one last written, or the power-on draw (20_memory.md R89; log 9). -/
def State.byteAt (s : State) (a : Nat) : Byte := (s.mem.get? a).getD (Config.powerOnByte s.epoch a)

/-- The window offset of `BUF[j]` (10_state.md R45, R52). -/
def bufAddr (j : Nat) : Nat := bufBase + 2 * j

/-- `BUF[j]`, little-endian in the window (20_memory.md R81). -/
def State.bufAt (s : State) (j : Nat) : Sample := s.byteAt (bufAddr j + 1) ++ s.byteAt (bufAddr j)

/-- The two bytes of an element, the low one first (20_memory.md R81). -/
def sampleBytes (v : Sample) : List Byte := [v.extractLsb' 0 8, v.extractLsb' 8 8]

/-- Write consecutive elements of `BUF` from element `first` (10_state.md R40). -/
def State.storeSamples (s : State) (first : Nat) (codes : List Sample) : State :=
  { s with mem := s.mem.store (bufAddr first) (codes.flatMap sampleBytes) }

/-! Indexed records. An index past the end is read as the zero record; no reachable state reads one (log 14). -/

/-- `SEQ[k]` (10_state.md R37). -/
def State.seqAt (s : State) (k : Nat) : StepRec := s.seq.getD k StepRec.zero

/-- `STAGE[k]` (10_state.md R50). -/
def State.stageAt (s : State) (k : Nat) : StageSlot := s.stage.getD k StageSlot.zero

/-- `DAC_OUT[ch]` (10_state.md R44). -/
def State.dacOut (s : State) : Channel → Sample
  | .ch0 => s.dacOut0
  | .ch1 => s.dacOut1

/-- The DMA's write of one code to a DAC channel: `DAC_OUT[ch] <- v`, and the pair appended to `TRACE`
(42_buffer_refill.md R192). -/
def State.emit (s : State) (ch : Channel) (v : Sample) : State :=
  match ch with
  | .ch0 => { s with dacOut0 := v, trace := s.trace ++ [(.ch0, v)] }
  | .ch1 => { s with dacOut1 := v, trace := s.trace ++ [(.ch1, v)] }

/-! Model faults (00_scope.md R16). -/

/-- Whether a name is in `FAULTS`. -/
def FaultSet.has (f : FaultSet) : ModelFault → Bool
  | .deadlineMiss => f.deadlineMiss
  | .paramsNotActive => f.paramsNotActive
  | .advanceNotActive => f.advanceNotActive
  | .advanceOverrun => f.advanceOverrun
  | .refillWhenIdle => f.refillWhenIdle

/-- `FAULTS` with one name added. -/
def FaultSet.add (f : FaultSet) : ModelFault → FaultSet
  | .deadlineMiss => { f with deadlineMiss := true }
  | .paramsNotActive => { f with paramsNotActive := true }
  | .advanceNotActive => { f with advanceNotActive := true }
  | .advanceOverrun => { f with advanceOverrun := true }
  | .refillWhenIdle => { f with refillWhenIdle := true }

/-- `fault <Name>`: the name is recorded, and nothing else changes (60_exceptions.md R316; log 15). -/
def State.addFault (s : State) (e : ModelFault) : State := { s with faults := s.faults.add e }

/-! The two ends of a command (60_exceptions.md R300): the block's only way of reporting an error. -/

/-- `ok(value)`. -/
def State.ok (s : State) (opc : Byte) (value : Bool) : State := { s with result := okWord opc value }

/-- `raise E`: the error is written to `RESULT`; no state is saved and no handler runs (60_exceptions.md R302). -/
def State.raise (s : State) (opc : Byte) (e : CommandError) : State := { s with result := errWord opc e }

/-! Collaborator outcomes (60_exceptions.md R318). -/

/-- The outcome a `draw` directive has fixed for a request, if any. -/
def FixedOutcomes.get (f : FixedOutcomes) : CollabRequest → Option Bool
  | .timerInit => f.timerInit
  | .dmaStart => f.dmaStart
  | .timerStart => f.timerStart

/-- The fixed outcomes with that of one request replaced. -/
def FixedOutcomes.put (f : FixedOutcomes) (r : CollabRequest) (v : Option Bool) : FixedOutcomes :=
  match r with
  | .timerInit => { f with timerInit := v }
  | .dmaStart => { f with dmaStart := v }
  | .timerStart => { f with timerStart := v }

/-- The outcome of the next request of a kind: the fixed one, or a free value (log 11). -/
def State.outcome (s : State) (r : CollabRequest) : Bool := (s.fixed.get r).getD (Config.collaboratorOk r s.drawCount)

/-- The state after a request has taken its outcome: it is used up, and the next one is a new draw
(60_exceptions.md R305). -/
def State.afterDraw (s : State) (r : CollabRequest) : State :=
  { s with fixed := s.fixed.put r none, drawCount := s.drawCount + 1 }

/-- A `draw` directive: the next outcome of a request is fixed (30_encoding.md R118). -/
def State.fixOutcome (s : State) (r : CollabRequest) (ok : Bool) : State :=
  { s with fixed := s.fixed.put r (some ok) }

/-! DMA events: the block's interrupts. -/

/-- `raise_event(e)`: appended, or merged with the pending one (42_buffer_refill.md R193). -/
def State.raiseEvent (s : State) (e : DmaEvent) : State :=
  if s.pending.contains e then s else { s with pending := s.pending ++ [e] }

/-- Entry of an event service: the head of `PENDING` is removed. No state is saved, and the return from the service
restores nothing (42_buffer_refill.md R197, 60_exceptions.md R309, R310). -/
def State.takeEvent (s : State) : State := { s with pending := s.pending.tail }

/-! Stop and reset. -/

/-- `stop_effects()` (44_controller.md R262): hardware triggering first, then the software state, in one step. -/
def State.stopEffects (s : State) : State :=
  { s with
    running := false
    pending := []
    dmaPos := 0#16
    lastHalf := none
    stepIndex := 0#8
    remain := 0#64
    phase := 0#32
    seqState := if s.seqCount = 0#8 then .notConfigured else .configured }

/-- Power-on reset applied to a running block (70_reset_and_hazards.md R340, R345): every piece of its state as after the
first one, with new draws for `BUF` and `DAC_OUT`. The configuration and the outside (what is scheduled, the outcomes to
come, the data the host read last) are not reset (log 12). -/
def State.powerOnReset (s : State) : State :=
  { s with toBlockState := BlockState.initial s.cfg (s.epoch + 1), epoch := s.epoch + 1 }

end Sys2Proof.Machine
end

