-- ==== Sys2Proof/Machine/Sequencer.lean ====
section
/-! DEFINITION. The step sequencer (43_step_sequencer.md): configure, start, advance, current parameters. None is a command
of its own: `SET_SEQUENCE`, `START_OUTPUT` and refill run them. -/

namespace Sys2Proof.Machine

/-- The stored step that `configure` makes of a staging slot (43_step_sequencer.md R230, R231). -/
def stepOfStage (c : Config) (g : StageSlot) : StepRec where
  freq := g.freq
  amp := g.amp
  dur := g.dur
  inc := BitVec.ofNat 32 (phaseIncrement c g.freq.toNat)
  samples := stepSamples c g.dur

/-- `configure`'s checks: the count, then the duration of each staged step (43_step_sequencer.md R230). -/
def configureOk (s : State) (n : Nat) : Bool :=
  decide (0 < n) && decide (n ≤ s.cfg.maxSteps) && (List.range n).all fun k => durationOk s.cfg (s.stageAt k).dur

/-- `configure`'s commit, once every check has passed (43_step_sequencer.md R230). -/
def configureCommit (s : State) (n : Nat) : State :=
  { s with
    seq := (List.range s.cfg.maxSteps).map fun k => if k < n then stepOfStage s.cfg (s.stageAt k) else StepRec.zero
    seqCount := BitVec.ofNat 8 n
    seqState := .configured }

/-- `seq_start()` (43_step_sequencer.md R235). -/
def seqStart (s : State) : State :=
  { s with
    seqState := .active
    stepIndex := 0#8
    remain := (s.seqAt 0).samples
    phase := 0#32 }

/-- What `advance` does when `REMAIN` has become 0 (43_step_sequencer.md R236). -/
def nextStep (s : State) : State :=
  if s.stepIndex.toNat + 1 < s.seqCount.toNat then
    { s with stepIndex := s.stepIndex + 1#8, remain := (s.seqAt (s.stepIndex.toNat + 1)).samples }
  else
    match s.cfg.endPolicy with
    | .loop => { s with stepIndex := 0#8, remain := (s.seqAt 0).samples }
    | .halt => { s with seqState := .finished }

/-- `advance(n)` (43_step_sequencer.md R236). Its two faults record their name and leave the rest unchanged
(60_exceptions.md R316; log 15). -/
def advance (s : State) (n : Nat) : State :=
  if s.seqState ≠ .active then s.addFault .advanceNotActive
  else if s.remain.toNat < n then s.addFault .advanceOverrun
  else if s.remain.toNat = n then nextStep { s with remain := 0#64 }
  else { s with remain := s.remain - BitVec.ofNat 64 n }

/-- `current_parameters()`: increment and amplitude of the active step, or the fault outside Active
(43_step_sequencer.md R237). -/
def currentParameters (s : State) : Except ModelFault (Word × Word) :=
  if s.seqState ≠ .active then .error .paramsNotActive
  else .ok ((s.seqAt s.stepIndex.toNat).inc, (s.seqAt s.stepIndex.toNat).amp)

end Sys2Proof.Machine
end

