-- ==== Sys2Proof/Machine/Refill.lean ====
section
/-! DEFINITION. The refill engine (42_buffer_refill.md R190, R200 to R204): refill of a half, prefill, auto-stop. -/

namespace Sys2Proof.Machine

/-- `base(half)` (42_buffer_refill.md R190). -/
def halfBase (c : Config) : Half → Nat
  | .first => 0
  | .second => c.half

/-- The synthesis of one half from the current step's parameters: H codes into the half, and `PHASE` advanced H times
(42_buffer_refill.md R200, 41_phase_accumulator.md R163). -/
def fillHalf (s : State) (h : Half) (inc amp : Word) : State :=
  { s.storeSamples (halfBase s.cfg h) (synth s.cfg inc amp s.phase s.cfg.half) with
    phase := phaseAfter s.cfg inc s.phase s.cfg.half }

/-- The last line of refill's Active branch: the half that holds the final samples is recorded (42_buffer_refill.md
R200). -/
def noteLastHalf (s : State) (h : Half) : State :=
  if s.seqState = .finished then { s with lastHalf := some h } else s

/-- Refill in the Active state (42_buffer_refill.md R200). -/
def refillActive (s : State) (h : Half) : State :=
  match currentParameters s with
  | .ok (inc, amp) => noteLastHalf (advance (fillHalf s h inc amp) s.cfg.half) h
  | .error e => s.addFault e

/-- Refill in the Finished state: the mid-scale filler (42_buffer_refill.md R201). -/
def refillFinished (s : State) (h : Half) : State :=
  s.storeSamples (halfBase s.cfg h) (List.replicate s.cfg.half (midSample s.cfg))

/-- `refill(half)` (42_buffer_refill.md R200). -/
def refill (s : State) (h : Half) : State :=
  match s.seqState with
  | .active => refillActive s h
  | .finished => refillFinished s h
  | .notConfigured => s.addFault .refillWhenIdle
  | .configured => s.addFault .refillWhenIdle

/-- `prefill()` (42_buffer_refill.md R202). -/
def prefill (s : State) : State := refill (refill s .first) .second

/-- `auto_stop()` (42_buffer_refill.md R204): `RESULT` is not written. -/
def autoStop (s : State) : State := { s.stopEffects with done := true }

end Sys2Proof.Machine
end

