-- ==== Sys2Proof/Machine/Controller.lean ====
section
/-! DEFINITION. The controller commands (44_controller.md): INIT, SET_SEQUENCE, START_OUTPUT, STOP_OUTPUT, IS_RUNNING, the
illegal command (60_exceptions.md R303), and the dispatch of a word written to `CMD` (R260). Every command ends in a next
state: an error is an outcome in `RESULT`. -/

namespace Sys2Proof.Machine

/-- What `INIT` resets, after the stop (44_controller.md R261). `generate()` changes no state (40_sine_table.md R142). -/
def initClear (s : State) : State :=
  { s with
    seq := List.replicate s.cfg.maxSteps StepRec.zero
    seqCount := 0#8
    seqState := .notConfigured
    channel := .ch0
    done := false
    underrun := false }

/-- `do_init()` up to its result: stop if Running, reset, draw the timer's outcome (44_controller.md R261). -/
def initEffects (s : State) : State :=
  let s1 := initClear (if s.running then s.stopEffects else s)
  { s1.afterDraw .timerInit with initDone := s1.outcome .timerInit }

/-- `do_init()` (44_controller.md R261): on failure the reset effects are kept. -/
def doInit (s : State) : State :=
  if (initEffects s).initDone then (initEffects s).ok opcInit false
  else (initEffects s).raise opcInit .hardwareStartFailure

/-- `do_set_sequence(n)` (44_controller.md R264). -/
def doSetSequence (s : State) (n : Nat) : State :=
  if s.running then s.raise opcSetSequence .alreadyRunning
  else if configureOk s n then (configureCommit s n).ok opcSetSequence false
  else s.raise opcSetSequence .configurationRejected

/-- The commit of `START_OUTPUT` up to the prefill (44_controller.md R270). -/
def startArm (s : State) (ch : Channel) : State :=
  { s with
    channel := ch
    done := false
    pending := []
    dmaPos := 0#16
    lastHalf := none }

/-- The commit of `START_OUTPUT`: cursor, prefill, then Running (44_controller.md R270). -/
def startCommit (s : State) (ch : Channel) : State := { prefill (seqStart (startArm s ch)) with running := true }

/-- The state after `START_OUTPUT` has drawn its two outcomes (44_controller.md R270). -/
def startDraws (s : State) : State := (s.afterDraw .dmaStart).afterDraw .timerStart

/-- Whether both collaborators started (44_controller.md R270): the DMA's outcome is drawn first, then the timer's. -/
def startOutcome (s : State) : Bool := s.outcome .dmaStart && (s.afterDraw .dmaStart).outcome .timerStart

/-- `do_start_output(ch)` (44_controller.md R270): the checks in the order of R271. -/
def doStartOutput (s : State) (ch : Channel) : State :=
  if s.running then s.raise opcStartOutput .alreadyRunning
  else if s.seqState = .notConfigured then s.raise opcStartOutput .notConfigured
  else if s.initDone = false then s.raise opcStartOutput .hardwareStartFailure
  else if startOutcome s then (startCommit (startDraws s) ch).ok opcStartOutput false
  else (startDraws s).raise opcStartOutput .hardwareStartFailure

/-- `do_stop_output()` (44_controller.md R263). -/
def doStopOutput (s : State) : State := s.stopEffects.ok opcStopOutput false

/-- `do_is_running()` (44_controller.md R275). -/
def doIsRunning (s : State) : State := s.ok opcIsRunning s.running

/-- `IllegalCommand` (60_exceptions.md R303). -/
def doIllegal (s : State) (opc : Byte) : State := s.raise opc .illegalCommand

/-- `execute_command(v)` (44_controller.md R260). -/
def executeCommand (s : State) (v : Word) : State :=
  match decodeCmd v with
  | .init => doInit s
  | .setSequence n => doSetSequence s n.toNat
  | .startOutput ch => doStartOutput s ch
  | .stopOutput => doStopOutput s
  | .isRunning => doIsRunning s
  | .illegal opc => doIllegal s opc

/-! The meanings. -/

/-- `INIT` (44_controller.md R261). -/
def execInit (s : State) : Host.Outcome State Fault Refusal := .next (doInit s)

/-- `SET_SEQUENCE` (44_controller.md R264). -/
def execSetSequence (count : BitVec 8) (s : State) : Host.Outcome State Fault Refusal :=
  .next (doSetSequence s count.toNat)

/-- `START_OUTPUT` (44_controller.md R270). -/
def execStartOutput (ch : Channel) (s : State) : Host.Outcome State Fault Refusal := .next (doStartOutput s ch)

/-- `STOP_OUTPUT` (44_controller.md R263). -/
def execStopOutput (s : State) : Host.Outcome State Fault Refusal := .next (doStopOutput s)

/-- `IS_RUNNING` (44_controller.md R275). -/
def execIsRunning (s : State) : Host.Outcome State Fault Refusal := .next (doIsRunning s)

end Sys2Proof.Machine
end

