-- ==== Sys2Proof/Machine/Bus.lean ====
section
/-! DEFINITION. The host's accesses to the register window (20_memory.md R80 to R86, 10_state.md R45 to R53). -/

namespace Sys2Proof.Machine

/-- First offset of the staging slots (10_state.md R45). -/
abbrev stageBase : Nat := 0x100

/-- Whether an offset lies in the staging window (10_state.md R45). -/
def inStage (c : Config) (addr : Nat) : Bool := decide (stageBase ≤ addr) && decide (addr < stageBase + 16 * c.maxSteps)

/-- Whether an offset lies in the `BUF` window (10_state.md R45). -/
def inBuf (c : Config) (addr : Nat) : Bool := decide (bufBase ≤ addr) && decide (addr < bufBase + 2 * c.bufferSize)

/-- The staging slot of an offset in the staging window (20_memory.md R83). -/
def stageIndex (addr : Nat) : Nat := (addr - stageBase) / 16

/-- The field of a staging slot at an offset in the staging window (20_memory.md R83). -/
def readStage (g : StageSlot) (addr : Nat) : Word :=
  if (addr - stageBase) % 16 = 0 then g.freq
  else if (addr - stageBase) % 16 = 4 then g.amp
  else if (addr - stageBase) % 16 = 8 then g.dur
  else 0#32

/-- The staging slot with the field at an offset replaced (20_memory.md R84). -/
def writeStage (g : StageSlot) (addr : Nat) (v : Word) : StageSlot :=
  if (addr - stageBase) % 16 = 0 then { g with freq := v }
  else if (addr - stageBase) % 16 = 4 then { g with amp := v }
  else if (addr - stageBase) % 16 = 8 then { g with dur := v }
  else g

/-- The `BUF` window (10_state.md R52): one element, or two with the lower-numbered one in bits [15:0]. -/
def readBuf (s : State) (addr : Nat) : AccessSize → Word
  | .half => (s.bufAt ((addr - bufBase) / 2)).setWidth 32
  | .word => s.bufAt ((addr - bufBase) / 2 + 1) ++ s.bufAt ((addr - bufBase) / 2)

/-- `MemRead(addr, n)` (20_memory.md R83). -/
def memRead (s : State) (addr : Nat) (size : AccessSize) : Word :=
  if addr = 0x000 then 0#32
  else if addr = 0x004 then s.result
  else if addr = 0x008 then s.statusWord
  else if addr = 0x00C then s.phase
  else if addr = 0x010 then s.remain.extractLsb' 0 32
  else if addr = 0x014 then s.remain.extractLsb' 32 32
  else if addr = 0x018 then s.dmaPos.setWidth 32
  else if addr = 0x01C then param0 s.cfg
  else if addr = 0x020 then param1 s.cfg
  else if addr = 0x024 then param2 s.cfg
  else if addr = 0x028 then s.seqCount.setWidth 32
  else if inStage s.cfg addr then readStage (s.stageAt (stageIndex addr)) addr
  else if inBuf s.cfg addr then readBuf s addr size
  else 0#32

/-- `MemWrite(addr, 4, v)` (20_memory.md R84). -/
def memWrite (s : State) (addr : Nat) (v : Word) : State :=
  if addr = 0x000 then executeCommand s v
  else if inStage s.cfg addr then
    { s with stage := s.stage.set (stageIndex addr) (writeStage (s.stageAt (stageIndex addr)) addr v) }
  else s

/-- The host address of a window offset (20_memory.md R85). -/
def hostAddress (offset : Offset) : Nat := Config.blockBase + offset.toNat

/-- The window offset of a host address, if it lies in the block's window (20_memory.md R85). -/
def offsetOfHostAddress (a : Nat) : Option Offset :=
  if Config.blockBase ≤ a ∧ a < Config.blockBase + windowSize then some (BitVec.ofNat 18 (a - Config.blockBase)) else none

/-! The meanings. -/

/-- `RD` (20_memory.md R83): the data go to the host (`readData`; log 8), and nothing else changes. -/
def execRd (size : AccessSize) (offset : Offset) (s : State) : Host.Outcome State Fault Refusal :=
  if accessOk s.cfg .rd size offset.toNat then .next { s with readData := memRead s offset.toNat size }
  else .fault .hostStuck

/-- `WR` (20_memory.md R84). -/
def execWr (size : AccessSize) (offset : Offset) (data : Word) (s : State) : Host.Outcome State Fault Refusal :=
  if accessOk s.cfg .wr size offset.toNat then .next (memWrite s offset.toNat data)
  else .fault .hostStuck

end Sys2Proof.Machine
end

