-- ==== Sys2Proof/Machine/Events.lean ====
section
/-! DEFINITION. The PACER's tick and the ISR's services (42_buffer_refill.md R191 to R199). -/

namespace Sys2Proof.Machine

/-- The tick's record of a deadline miss (42_buffer_refill.md R192, R194). -/
def noteUnderrun (s : State) : State :=
  if s.underrunAt s.dmaPos.toNat then ({ s with underrun := true }).addFault .deadlineMiss else s

/-- The tick's transfer of one element to the active channel (42_buffer_refill.md R192). -/
def transfer (s : State) : State := s.emit s.channel (dacCode s.cfg (s.bufAt s.dmaPos.toNat))

/-- The events a tick raises (42_buffer_refill.md R192, R193): HT at the last element of the First half, TC at the last of
the Second. -/
def tickEvents (s : State) : State :=
  let s1 := if s.dmaPos.toNat + 1 = s.cfg.half then s.raiseEvent .ht else s
  if s.dmaPos.toNat + 1 = s.cfg.bufferSize then s1.raiseEvent .tc else s1

/-- The DMA's next position (42_buffer_refill.md R192). -/
def nextPos (c : Config) (pos : BitVec 16) : BitVec 16 := BitVec.ofNat 16 ((pos.toNat + 1) % c.bufferSize)

/-- `tick()` (42_buffer_refill.md R192). -/
def tick (s : State) : State :=
  { tickEvents (transfer (noteUnderrun s)) with dmaPos := nextPos s.cfg s.dmaPos }

/-- The handler of an event (42_buffer_refill.md R198, R199): auto-stop when the half it names holds the final samples,
refill otherwise. -/
def handler (s : State) (e : DmaEvent) : State :=
  if s.lastHalf = some e.half then autoStop s else refill s e.half

/-- `isr_service()` for the event `e` that the code names (42_buffer_refill.md R197): the ISR has a step only for the head
of `PENDING`. -/
def serviceEvent (s : State) (e : DmaEvent) : Host.Outcome State Fault Refusal :=
  match s.pending with
  | [] => .fault .isrNotEnabled
  | head :: _ => if head = e then .next (handler s.takeEvent e) else .fault .eventNotHead

/-! The meanings. -/

/-- `EV_TICK` (42_buffer_refill.md R191, R192): the PACER has a step only while Running. -/
def execEvTick (s : State) : Host.Outcome State Fault Refusal :=
  if s.running then .next (tick s) else .fault .pacerNotEnabled

/-- `EV_HT` (42_buffer_refill.md R198). -/
def execEvHt (s : State) : Host.Outcome State Fault Refusal := serviceEvent s .ht

/-- `EV_TC` (42_buffer_refill.md R199). -/
def execEvTc (s : State) : Host.Outcome State Fault Refusal := serviceEvent s .tc

end Sys2Proof.Machine
end

