-- ==== Sys2Proof/Machine/Dispatch.lean ====
section
/-! DEFINITION. The dispatch: one arm for each constructor of `Instr`, each one direct call of its meaning. -/

namespace Sys2Proof.Machine

def exec (i : Instr) (s : State) : Host.Outcome State Fault Refusal :=
  match i with
  | .init => Sys2Proof.Machine.execInit s
  | .setSequence count => Sys2Proof.Machine.execSetSequence count s
  | .startOutput ch => Sys2Proof.Machine.execStartOutput ch s
  | .stopOutput => Sys2Proof.Machine.execStopOutput s
  | .isRunning => Sys2Proof.Machine.execIsRunning s
  | .evTick => Sys2Proof.Machine.execEvTick s
  | .evHt => Sys2Proof.Machine.execEvHt s
  | .evTc => Sys2Proof.Machine.execEvTc s
  | .rd size offset => Sys2Proof.Machine.execRd size offset s
  | .wr size offset data => Sys2Proof.Machine.execWr size offset data s

end Sys2Proof.Machine
end

