-- ==== Sys2Proof/Machine/Fetch.lean ====
section
/-! DEFINITION. How a slot of the schedule becomes a step: a raw transaction is decoded and executed, an `isr` slot takes
its event code from the head of `PENDING` (42_buffer_refill.md R197), and what a word of the opcode table needs so that the
next step runs it. -/

namespace Sys2Proof.Machine

/-- One raw transaction: the decoded instruction's step; an `ILLEGAL` command word executes as 60_exceptions.md R303. -/
def runPacket (p : Packet) (s : State) : Host.Outcome State Fault Refusal :=
  match decode p with
  | .ok i => exec i s
  | .error (.illegalCommand opc) => .next (doIllegal s opc)
  | .error .reservedEvent => .refused .reservedEvent
  | .error .badAccess => .fault .hostStuck

/-- The ISR agent's turn: "the event code of an ISR step is fixed by the state" (30_encoding.md R116). -/
def runIsr (s : State) : Host.Outcome State Fault Refusal :=
  match s.pending with
  | [] => .fault .isrNotEnabled
  | e :: _ => runPacket (.evt e.code) s

/-- One slot of the schedule (00_scope.md R4; log 3). -/
def runSlot (slot : Slot) (s : State) : Host.Outcome State Fault Refusal :=
  match slot with
  | .packet p => runPacket p s
  | .isr => runIsr s
  | .draw r ok => .next (s.fixOutcome r ok)
  | .reset => .next s.powerOnReset

/-- The state with a raw transaction placed where the next step takes it. A tick comes only from a running block, and an
event code only from the head of `PENDING`, so those are set for the event codes, and nothing else is (log 4). -/
def presentPacket (s : State) (p : Packet) : State :=
  match p with
  | .cmd word => { s with schedule := .packet (.cmd word) :: s.schedule }
  | .bus dir size offset data => { s with schedule := .packet (.bus dir size offset data) :: s.schedule }
  | .evt code =>
    { s with
      schedule := .packet (.evt code) :: s.schedule
      running := s.running || code == 0b00#2
      pending :=
        if code = 0b01#2 then .ht :: s.pending.erase .ht
        else if code = 0b10#2 then .tc :: s.pending.erase .tc
        else s.pending }

end Sys2Proof.Machine
end

