-- ==== Sys2Proof/Machine/Step.lean ====
section
/-! DEFINITION. One step of the machine: the agent that the schedule names steps; with nothing scheduled the machine idles
("it executes nothing until the host writes CMD", 70_reset_and_hazards.md R342; log 3). -/

namespace Sys2Proof.Machine

/-- One step. -/
def step (s : State) : Host.Outcome State Fault Refusal :=
  match s.schedule with
  | [] => .next s
  | slot :: rest => runSlot slot { s with schedule := rest }

/-- The state with the instruction of these table bits placed where the next step takes it; bits that are no packet change
nothing (log 4). -/
def State.withFetchWord (s : State) (nbits w : Nat) : State :=
  match packetOfBits nbits w with
  | some p => presentPacket s p
  | none => s

end Sys2Proof.Machine
end

