-- ==== Sys2Proof/Machine/Assembly.lean ====
section
/-! DEFINITION. The host-side listing (30_encoding.md R118, R119) as abstract syntax, and its assembly into schedule slots.
Labels and comments assemble to nothing and are left out (log 18). -/

namespace Sys2Proof.Machine

/-- A register operand: a symbol, a `BUF` element's offset, or a bare offset (30_encoding.md R118). -/
inductive RegRef where
  | cmd
  | result
  | status
  | phase
  | remainLo
  | remainHi
  | dmaPos
  | param0
  | param1
  | param2
  | seqCount
  | stageFreq (k : Nat)
  | stageAmp (k : Nat)
  | stageDur (k : Nat)
  | buf (j : Nat)
  | offset (n : Nat)
  deriving DecidableEq, Repr

/-- One line of a listing (30_encoding.md R118, R119): accesses, pseudo-instructions, directives. -/
inductive Line where
  | wr (reg : RegRef) (value : Int)
  | rd (reg : RegRef) (expected : Option Int)
  | rdh (j : Nat) (expected : Option Int)
  | init
  | setseq (n : Nat)
  | start (ch : Nat)
  | stop
  | isrun
  | stage (k : Nat) (f a d : Int)
  | tick (count : Nat)
  | isr
  | draw (r : CollabRequest) (ok : Bool)
  deriving DecidableEq, Repr

/-- The offset a symbol stands for (30_encoding.md R118); a staging slot or a buffer element that does not exist has none. -/
def RegRef.addr (c : Config) : RegRef → Option Nat
  | .cmd => some 0x000
  | .result => some 0x004
  | .status => some 0x008
  | .phase => some 0x00C
  | .remainLo => some 0x010
  | .remainHi => some 0x014
  | .dmaPos => some 0x018
  | .param0 => some 0x01C
  | .param1 => some 0x020
  | .param2 => some 0x024
  | .seqCount => some 0x028
  | .stageFreq k => if k < c.maxSteps then some (0x100 + 16 * k) else none
  | .stageAmp k => if k < c.maxSteps then some (0x104 + 16 * k) else none
  | .stageDur k => if k < c.maxSteps then some (0x108 + 16 * k) else none
  | .buf j => if j < c.bufferSize then some (bufAddr j) else none
  | .offset n => if n < windowSize then some n else none

/-- A value as a 32-bit two's-complement word, if 32 bits represent it (30_encoding.md R118, R119). -/
def valueWord (v : Int) : Option Word := if -(2 ^ 31) ≤ v ∧ v < 2 ^ 32 then some (BitVec.ofInt 32 v) else none

/-- The slot of a host write of a word (30_encoding.md R117). -/
def wrSlot (addr : Nat) (v : Word) : Slot := .packet (encode (.wr .word (BitVec.ofNat 18 addr) v))

/-- The slot of a host read (30_encoding.md R117). -/
def rdSlot (size : AccessSize) (addr : Nat) : Slot := .packet (encode (.rd size (BitVec.ofNat 18 addr)))

/-- The slots of one line, if it assembles (30_encoding.md R118, R119). -/
def assembleLine (c : Config) : Line → Option (List Slot)
  | .wr reg value => do return [wrSlot (← reg.addr c) (← valueWord value)]
  | .rd reg _ => do return [rdSlot .word (← reg.addr c)]
  | .rdh j _ => if j < c.bufferSize then some [rdSlot .half (bufAddr j)] else none
  | .init => some [wrSlot 0x000 0x00000001#32]
  | .setseq n => if n ≤ 255 then some [wrSlot 0x000 (setSequenceWord (BitVec.ofNat 8 n))] else none
  | .start ch => if ch ≤ 1 then some [wrSlot 0x000 (startOutputWord (Channel.ofBit (ch == 1)))] else none
  | .stop => some [wrSlot 0x000 0x00000004#32]
  | .isrun => some [wrSlot 0x000 0x00000005#32]
  | .stage k f a d => do
    return [wrSlot (← (RegRef.stageFreq k).addr c) (← valueWord f), wrSlot (← (RegRef.stageAmp k).addr c) (← valueWord a),
      wrSlot (← (RegRef.stageDur k).addr c) (← valueWord d)]
  | .tick count => some (List.replicate count (.packet (encode .evTick)))
  | .isr => some [.isr]
  | .draw r ok => some [.draw r ok]

/-- The slots of a listing, if every line assembles. -/
def assemble (c : Config) : List Line → Option (List Slot)
  | [] => some []
  | l :: ls => do return (← assembleLine c l) ++ (← assemble c ls)

/-- Whether the read of a line returned what the line expects (30_encoding.md R118: "optional expected value"). -/
def Line.expectationHolds (l : Line) (s : State) : Bool :=
  match l with
  | .rd _ (some v) => decide (valueWord v = some s.readData)
  | .rdh _ (some v) => decide (valueWord v = some s.readData)
  | _ => true

end Sys2Proof.Machine
end

