-- ==== Sys2Proof/Safety.lean ====
section
/-! DEFINITION. What the statements count as a consistent state: the invariants INV1 to INV8 of 10_state.md R55, the ranges of
the fields that State holds in a wider type, a good state (00_scope.md R16), and a fair run (70_reset_and_hazards.md R357). -/

namespace Sys2Proof.Machine

/-- INV1 (10_state.md R55). -/
abbrev inv1 (s : State) : Prop := s.running = true → s.seqState = .active ∨ s.seqState = .finished

/-- INV2 (10_state.md R55). -/
abbrev inv2 (s : State) : Prop :=
  s.running = false →
    (s.seqState = .notConfigured ∨ s.seqState = .configured) ∧ s.pending = [] ∧ s.dmaPos = 0#16 ∧ s.lastHalf = none ∧
      s.phase = 0#32 ∧ s.remain = 0#64 ∧ s.stepIndex = 0#8

/-- INV3 (10_state.md R55). -/
abbrev inv3 (s : State) : Prop := s.seqState = .notConfigured ↔ s.seqCount = 0#8

/-- INV4 (10_state.md R55). -/
abbrev inv4 (s : State) : Prop :=
  s.seqState = .active →
    s.stepIndex.toNat < s.seqCount.toNat ∧ 0 < s.remain.toNat ∧
      s.remain.toNat ≤ (s.seqAt s.stepIndex.toNat).samples.toNat ∧ s.remain.toNat % s.cfg.half = 0

/-- INV5 (10_state.md R55). -/
abbrev inv5 (s : State) : Prop :=
  s.seqState = .finished →
    s.remain = 0#64 ∧ (s.lastHalf = some .first ∨ s.lastHalf = some .second) ∧ s.cfg.endPolicy = .halt

/-- INV6 (10_state.md R55). -/
abbrev inv6 (s : State) : Prop := s.seqState = .active → s.lastHalf = none

/-- INV7 (10_state.md R55). -/
abbrev inv7 (s : State) : Prop := s.pending.Nodup

/-- INV8 (10_state.md R55). -/
abbrev inv8 (s : State) : Prop :=
  ∀ k, k < s.seqCount.toNat → 0 < (s.seqAt k).samples.toNat ∧ (s.seqAt k).samples.toNat % s.cfg.half = 0

/-- INV1 to INV8 (10_state.md R55). -/
abbrev Inv (s : State) : Prop :=
  inv1 s ∧ inv2 s ∧ inv3 s ∧ inv4 s ∧ inv5 s ∧ inv6 s ∧ inv7 s ∧ inv8 s

/-- The bytes of the `BUF` window are in canonical form and lie in the window (10_state.md R40, R45). -/
abbrev memForm (s : State) : Prop :=
  Memory.wf s.mem ∧ ∀ x ∈ s.mem, bufBase ≤ x.1 ∧ x.1 < bufBase + 2 * s.cfg.bufferSize

/-- The stored sequence and the staging slots have M entries; entries from `SEQ_COUNT` on are zero; increments are W-bit
numbers (10_state.md R37, R50). -/
abbrev seqForm (s : State) : Prop :=
  s.seq.length = s.cfg.maxSteps ∧ s.stage.length = s.cfg.maxSteps ∧ s.seqCount.toNat ≤ s.cfg.maxSteps ∧
    ∀ k, k < s.cfg.maxSteps →
      (s.seqAt k).inc.toNat < 2 ^ s.cfg.phaseBits ∧ (s.seqCount.toNat ≤ k → s.seqAt k = StepRec.zero)

/-- The ranges of the fields that State holds in a wider type (10_state.md R39, R42, R44). -/
abbrev rangeForm (s : State) : Prop :=
  s.phase.toNat < 2 ^ s.cfg.phaseBits ∧ s.dmaPos.toNat < s.cfg.bufferSize ∧ s.dacOut0.toNat < 2 ^ s.cfg.dacBits ∧
    s.dacOut1.toNat < 2 ^ s.cfg.dacBits

/-- A consistent state: the invariants of R55 and the form of every field, for a configuration that passes the checks a
computation can make. The premise of the statements about every state, which thereby hold for more tables than R141's. -/
abbrev Consistent (s : State) : Prop :=
  s.cfg.wellFormed = true ∧ Inv s ∧ memForm s ∧ seqForm s ∧ rangeForm s

/-- A legal state: a consistent state of a block whose table is the one of 40_sine_table.md R141. -/
abbrev Legal (s : State) : Prop := s.cfg.Legal ∧ Consistent s

/-- No model fault but a deadline miss has occurred (60_exceptions.md R316: the other four are unreachable). -/
abbrev onlyDeadlineMiss (f : FaultSet) : Prop :=
  f.paramsNotActive = false ∧ f.advanceNotActive = false ∧ f.advanceOverrun = false ∧ f.refillWhenIdle = false

/-- A good state: no model fault (00_scope.md R16: "A faulted state is never a good final state"). -/
abbrev Good (s : State) : Prop := s.faults = FaultSet.empty

/-! Words the statements are written in. -/

/-- Every byte of the `BUF` window reads as before. -/
abbrev sameBytes (s t : State) : Prop := ∀ a, t.byteAt a = s.byteAt a

/-- Every byte outside `n` elements of `BUF` from element `first` reads as before. -/
abbrev sameBytesOutside (s t : State) (first n : Nat) : Prop :=
  ∀ a, a < bufAddr first ∨ bufAddr first + 2 * n ≤ a → t.byteAt a = s.byteAt a

/-- The sequencer's cursor, all of it: `SEQ_STATE`, `STEP_INDEX`, `REMAIN`, `PHASE` and `LAST_HALF` (10_state.md R36, R39,
R43). -/
abbrev cursorIs (t : State) (q : SeqState) (k rem : Nat) (phase : Word) (last : Option Half) : Prop :=
  t.seqState = q ∧ t.stepIndex.toNat = k ∧ t.remain.toNat = rem ∧ t.phase = phase ∧ t.lastHalf = last

/-- The instruction that services an event (30_encoding.md R116). -/
abbrev instrOfEvent : DmaEvent → Instr
  | .ht => .evHt
  | .tc => .evTc

/-- The slot of one sample tick. -/
abbrev tickSlot : Slot := .packet (.evt 0b00#2)

/-- The slot presents an instruction: a raw transaction that decodes to it. -/
abbrev presents (slot : Slot) (i : Instr) : Prop := ∃ p, slot = .packet p ∧ decode p = .ok i

/-- The slot presents a command: by its word, or by a host write of that word to `CMD` (30_encoding.md R117). -/
abbrev presentsCommand (slot : Slot) (i : Instr) : Prop :=
  presents slot i ∨ ∃ v, presents slot (.wr .word 0x00000#18 v) ∧ decode (.cmd v) = .ok i

/-! Fair runs: the one assumption on time that the spec makes (70_reset_and_hazards.md R357; log 20). A run is an endless
sequence of states and of the slots that lead from each to the next. -/

/-- The instruction that a slot's agent runs in a state, if it is an agent's turn. -/
def slotInstr (slot : Slot) (s : State) : Option Instr :=
  match slot with
  | .packet p => (decode p).toOption
  | .isr => s.pending.head?.map instrOfEvent
  | .draw _ _ => none
  | .reset => none

/-- Each state is the step of the one before it under its slot. No agent without a step steps, and none of the steps idles:
whatever was scheduled, the slot is what the step takes. -/
abbrev IsRun (states : Nat → State) (slots : Nat → Slot) : Prop :=
  ∀ n, step { states n with schedule := [slots n] } = .next (states (n + 1))

/-- "While `RUNNING = 1`, the PACER eventually ticks". -/
abbrev PacerFair (states : Nat → State) (slots : Nat → Slot) : Prop :=
  ∀ n, (states n).running = true → ∃ m, n ≤ m ∧ (slotInstr (slots m) (states m) = some .evTick ∨ (states m).running = false)

/-- "While `PENDING` is not empty, the ISR eventually services". -/
abbrev IsrFair (states : Nat → State) (slots : Nat → Slot) : Prop :=
  ∀ n, (states n).pending ≠ [] →
    ∃ m, n ≤ m ∧ ((∃ e, slotInstr (slots m) (states m) = some (instrOfEvent e)) ∨ (states m).pending = [])

/-- A fair run (70_reset_and_hazards.md R357): the run of a block whose PACER and ISR keep stepping while enabled. -/
abbrev FairRun (states : Nat → State) (slots : Nat → Slot) : Prop :=
  IsRun states slots ∧ PacerFair states slots ∧ IsrFair states slots

end Sys2Proof.Machine
end

