-- ==== Sys2Proof/Certificates/Slice0/Obligations.lean ====
section
/-! DEFINITION. The statements for the provers, from the numbered rules of spec/. Listed in OBLIGATIONS.json. -/

open Sys2Proof Sys2Proof.Machine

/-! ### Encoding -/

/-- 30_encoding.md R110 to R117: a well-formed instruction's packet decodes to it. -/
def Obligations.DecodeEncodeRoundTrip : Prop :=
  ∀ (c : Config) (i : Instr), c.paramsLegal = true → i.wf c = true → decode (encode i) = .ok i

/-- The same through the packet's bits as numbers; the bit positions of the BUS format are the model's (log 17). -/
def Obligations.TableBitsRoundTrip : Prop :=
  ∀ (c : Config) (i : Instr), c.paramsLegal = true → i.wf c = true →
    decodeTableWord (bitsOfPacket (encode i)).1 (bitsOfPacket (encode i)).2 = some i

/-- 30_encoding.md R112: each command's words are those its mask and match accept; every other word is ILLEGAL with its
`OPC` (R114, R115). -/
def Obligations.CommandDecodeIsTheTable : Prop :=
  ∀ v : Word,
    (decodeCmd v = .init ↔ v &&& 0xFFFFFFFF#32 = 0x00000001#32) ∧
    (∀ n, decodeCmd v = .setSequence n ↔ v &&& 0xFF00FFFF#32 = 0x00000002#32 ∧ n = v.extractLsb' 16 8) ∧
    (∀ ch, decodeCmd v = .startOutput ch ↔ v &&& 0xFFFFFEFF#32 = 0x00000003#32 ∧ ch.bit = v.getLsbD 8) ∧
    (decodeCmd v = .stopOutput ↔ v &&& 0xFFFFFFFF#32 = 0x00000004#32) ∧
    (decodeCmd v = .isRunning ↔ v &&& 0xFFFFFFFF#32 = 0x00000005#32) ∧
    (∀ opc, decodeCmd v = .illegal opc ↔
      opc = v.extractLsb' 0 8 ∧ v ≠ 0x00000001#32 ∧ v &&& 0xFF00FFFF#32 ≠ 0x00000002#32 ∧
        v &&& 0xFFFFFEFF#32 ≠ 0x00000003#32 ∧ v ≠ 0x00000004#32 ∧ v ≠ 0x00000005#32)

/-- 30_encoding.md R112, R114: a command word that is not ILLEGAL is the one word of its instruction. -/
def Obligations.CommandWordHasOneMeaning : Prop :=
  ∀ (v : Word) (i : Instr), decode (.cmd v) = .ok i → encode i = .cmd v

/-- 30_encoding.md R112, R116, R117: one word of each row. -/
def Obligations.SampleWordsDecode : Prop :=
  decode (.cmd 0x00000001#32) = .ok .init ∧
  decode (.cmd 0x00100002#32) = .ok (.setSequence 16#8) ∧
  decode (.cmd 0x00000103#32) = .ok (.startOutput .ch1) ∧
  decode (.cmd 0x00000004#32) = .ok .stopOutput ∧
  decode (.cmd 0x00000005#32) = .ok .isRunning ∧
  decode (.evt 0b00#2) = .ok .evTick ∧
  decode (.evt 0b01#2) = .ok .evHt ∧
  decode (.evt 0b10#2) = .ok .evTc ∧
  decode (.bus .rd 2#3 0x01002#18 0#32) = .ok (.rd .half 0x01002#18) ∧
  decode (.bus .wr 4#3 0x00108#18 0x000000FA#32) = .ok (.wr .word 0x00108#18 0x000000FA#32)

/-- 30_encoding.md R116: "a model refuses a trace that contains it". -/
def Obligations.ReservedEventRefused : Prop :=
  ∀ (s : State) (rest : List Slot), s.schedule = .packet (.evt 0b11#2) :: rest → step s = .refused .reservedEvent

/-- 30_encoding.md R119: each pseudo-instruction assembles to the host writes of its expansion, and one whose operand is
out of range does not assemble. -/
def Obligations.PseudoInstructionsAssemble : Prop :=
  ∀ c : Config, c.paramsLegal = true →
    (∃ slot, assembleLine c .init = some [slot] ∧ presents slot (.wr .word 0x00000#18 0x00000001#32)) ∧
    (∀ n, n ≤ 255 → ∃ slot, assembleLine c (.setseq n) = some [slot] ∧
      presents slot (.wr .word 0x00000#18 (0x00000002#32 ||| (BitVec.ofNat 32 n <<< 16)))) ∧
    (∀ ch, ch ≤ 1 → ∃ slot, assembleLine c (.start ch) = some [slot] ∧
      presents slot (.wr .word 0x00000#18 (0x00000003#32 ||| (BitVec.ofNat 32 ch <<< 8)))) ∧
    (∃ slot, assembleLine c .stop = some [slot] ∧ presents slot (.wr .word 0x00000#18 0x00000004#32)) ∧
    (∃ slot, assembleLine c .isrun = some [slot] ∧ presents slot (.wr .word 0x00000#18 0x00000005#32)) ∧
    (∀ (k : Nat) (f a d : Int), k < c.maxSteps → -(2 ^ 31) ≤ f → f < 2 ^ 32 → -(2 ^ 31) ≤ a → a < 2 ^ 32 → -(2 ^ 31) ≤ d →
      d < 2 ^ 32 →
      ∃ s1 s2 s3, assembleLine c (.stage k f a d) = some [s1, s2, s3] ∧
        presents s1 (.wr .word (BitVec.ofNat 18 (0x100 + 16 * k)) (BitVec.ofInt 32 f)) ∧
        presents s2 (.wr .word (BitVec.ofNat 18 (0x104 + 16 * k)) (BitVec.ofInt 32 a)) ∧
        presents s3 (.wr .word (BitVec.ofNat 18 (0x108 + 16 * k)) (BitVec.ofInt 32 d))) ∧
    (∀ n, 255 < n → assembleLine c (.setseq n) = none) ∧
    (∀ ch, 1 < ch → assembleLine c (.start ch) = none) ∧
    (∀ (k : Nat) (f a d : Int),
      (c.maxSteps ≤ k ∨ f < -(2 ^ 31) ∨ 2 ^ 32 ≤ f ∨ a < -(2 ^ 31) ∨ 2 ^ 32 ≤ a ∨ d < -(2 ^ 31) ∨ 2 ^ 32 ≤ d) →
        assembleLine c (.stage k f a d) = none)

/-! ### The step -/

/-- A step runs the decoded instruction: the slot is taken off, and the step is `exec` of the instruction at that state. -/
def Obligations.StepRunsDecodedInstruction : Prop :=
  ∀ (s : State) (p : Packet) (rest : List Slot) (i : Instr), s.schedule = .packet p :: rest → decode p = .ok i →
    step s = exec i { s with schedule := rest }

/-- The other slots: the ISR's turn services the head of `PENDING` (42_buffer_refill.md R197) and is no step when there is
none (R196); a `draw` directive fixes one outcome and nothing else; with nothing scheduled the machine idles (log 3, 11). -/
def Obligations.OtherSlotsOfTheSchedule : Prop :=
  (∀ (s : State) (rest : List Slot) (e : DmaEvent) (es : List DmaEvent), s.schedule = .isr :: rest → s.pending = e :: es →
    step s = exec (instrOfEvent e) { s with schedule := rest }) ∧
  (∀ (s : State) (rest : List Slot), s.schedule = .isr :: rest → s.pending = [] → step s = .fault .isrNotEnabled) ∧
  (∀ (s : State) (rest : List Slot) (r : CollabRequest) (b : Bool), s.schedule = .draw r b :: rest →
    ∃ t, step s = .next t ∧ t.outcome r = b ∧ (∀ r', r' ≠ r → t.outcome r' = s.outcome r') ∧
      t = { s with schedule := rest, fixed := t.fixed }) ∧
  (∀ s : State, s.schedule = [] → step s = .next s)

/-! ### Reset -/

/-- 70_reset_and_hazards.md R341: every reset value the spec gives, and what the registers read after reset; `BUF` and
`DAC_OUT` are draws, the latter of D bits. For every configuration; `State.reset` is that of the reference configuration. -/
def Obligations.ResetStateIsIdle : Prop :=
  State.reset = State.initial Config.reference 0 ∧
  ∀ (c : Config) (n : Nat),
    (State.initial c n).running = false ∧ (State.initial c n).channel = .ch0 ∧
    (State.initial c n).seqState = .notConfigured ∧ (State.initial c n).stepIndex = 0#8 ∧
    (State.initial c n).remain = 0#64 ∧ (State.initial c n).phase = 0#32 ∧ (State.initial c n).seqCount = 0#8 ∧
    (∀ k, (State.initial c n).seqAt k = StepRec.zero) ∧ (∀ k, (State.initial c n).stageAt k = StageSlot.zero) ∧
    (∀ a, (State.initial c n).byteAt a = Config.powerOnByte n a) ∧ (State.initial c n).dmaPos = 0#16 ∧
    (State.initial c n).pending = [] ∧ (State.initial c n).lastHalf = none ∧ (State.initial c n).initDone = false ∧
    (State.initial c n).done = false ∧ (State.initial c n).underrun = false ∧ (State.initial c n).result = 0#32 ∧
    (c.paramsLegal = true → ∀ ch, ((State.initial c n).dacOut ch).toNat = (Config.powerOnDac n ch).toNat % 2 ^ c.dacBits) ∧
    (State.initial c n).faults = FaultSet.empty ∧ (State.initial c n).trace = [] ∧
    (∀ addr, addr ∈ [0x004, 0x008, 0x00C, 0x010, 0x014, 0x018, 0x028] → memRead (State.initial c n) addr .word = 0#32)

/-- 70_reset_and_hazards.md R340: reset can be applied at any later time, and always has the same effect, with new draws. -/
def Obligations.PowerOnResetAtAnyTime : Prop :=
  ∀ (s : State) (rest : List Slot), s.schedule = .reset :: rest →
    step s = .next { State.initial s.cfg (s.epoch + 1) with
      schedule := rest, fixed := s.fixed, drawCount := s.drawCount, readData := s.readData }

/-- 70_reset_and_hazards.md R342: the state after reset satisfies every invariant, for every configuration; it is a legal
state where the table is R141's (log 1, 2). -/
def Obligations.ResetStateLegal : Prop :=
  Consistent State.reset ∧ ∀ (c : Config) (n : Nat),
    (c.wellFormed = true → Consistent (State.initial c n)) ∧ (c.Legal → Legal (State.initial c n))

/-! ### Invariants and whole-machine rules -/

/-- 10_state.md R55: every step keeps INV1 to INV8 (with the form of the fields and the checks of the configuration), and
keeps a state legal (its table that of 40_sine_table.md R141). -/
def Obligations.StepKeepsLegal : Prop :=
  ∀ s t : State, step s = .next t → (Consistent s → Consistent t) ∧ (Legal s → Legal t)

/-- 10_state.md R30: no step changes the configuration. -/
def Obligations.StepKeepsConfiguration : Prop :=
  ∀ s t : State, step s = .next t → t.cfg = s.cfg

/-- Every step keeps the bytes of `BUF` in canonical form, from every state. -/
def Obligations.StepKeepsMemoryCanonical : Prop :=
  ∀ s t : State, Memory.wf s.mem → step s = .next t → Memory.wf t.mem

/-- 00_scope.md R16, 10_state.md R54: no step but a power-on reset removes a model fault. -/
def Obligations.FaultsNeverRemoved : Prop :=
  ∀ (s t : State) (e : ModelFault), step s = .next t → s.schedule.head? ≠ some .reset → s.faults.has e = true →
    t.faults.has e = true

/-- 60_exceptions.md R316: from a consistent state only `DEADLINE_MISS` can be added. -/
def Obligations.OnlyDeadlineMissOccurs : Prop :=
  ∀ s t : State, Consistent s → onlyDeadlineMiss s.faults → step s = .next t → onlyDeadlineMiss t.faults

/-- 10_state.md R54: only the tick appends to `TRACE`, and it appends the transferred pair. -/
def Obligations.TraceGrowsOnlyByTick : Prop :=
  ∀ s t : State, step s = .next t →
    (s.schedule.head? = some .reset ∧ t.trace = []) ∨ t.trace = s.trace ∨
      ∃ slot rest, s.schedule = slot :: rest ∧ presents slot .evTick ∧ s.running = true ∧
        t.trace = s.trace ++ [(s.channel, dacCode s.cfg (s.bufAt s.dmaPos.toNat))]

/-- 60_exceptions.md R300: "Ticks, ISR services and auto-stop do not write it"; 20_memory.md R84: "No write changes `RESULT`
except a write to `CMD`". -/
def Obligations.ResultWrittenOnlyByCommands : Prop :=
  ∀ s t : State, step s = .next t →
    t.result = s.result ∨ s.schedule.head? = some .reset ∨
      (∃ v rest, s.schedule = .packet (.cmd v) :: rest) ∨
      ∃ slot rest v, s.schedule = slot :: rest ∧ presents slot (.wr .word 0x00000#18 v)

/-- 10_state.md R50: only a host write to a staging slot (and reset) changes `STAGE`. -/
def Obligations.StageWrittenOnlyByHost : Prop :=
  ∀ s t : State, step s = .next t →
    t.stage = s.stage ∨ s.schedule.head? = some .reset ∨
      ∃ slot rest off v, s.schedule = slot :: rest ∧ presents slot (.wr .word off v) ∧
        0x100 ≤ off.toNat ∧ off.toNat < 0x100 + 16 * s.cfg.maxSteps ∧ off.toNat % 16 ≠ 12

/-- 70_reset_and_hazards.md R353, 10_state.md R37: the stored sequence and the channel never change under a running
output. -/
def Obligations.SequenceFixedWhileRunning : Prop :=
  ∀ s t : State, step s = .next t → s.running = true → t.running = true →
    t.seq = s.seq ∧ t.seqCount = s.seqCount ∧ t.channel = s.channel

/-- 44_controller.md R277: Running ends only by `STOP_OUTPUT`, `INIT`, an auto-stop, or a power-on reset. -/
def Obligations.RunningEndsOnlyByStop : Prop :=
  ∀ s t : State, step s = .next t → s.running = true → t.running = false →
    ∃ slot rest, s.schedule = slot :: rest ∧
      (slot = .reset ∨ presentsCommand slot .stopOutput ∨ presentsCommand slot .init ∨
        ∃ e, s.pending.head? = some e ∧ s.lastHalf = some e.half ∧ (slot = .isr ∨ presents slot (instrOfEvent e)) ∧
          t.done = true)

/-- 43_step_sequencer.md R238: the transitions of `SEQ_STATE` from a consistent state, each with what causes it. -/
def Obligations.SequencerTransitionTable : Prop :=
  ∀ s t : State, Consistent s → step s = .next t → t.seqState ≠ s.seqState →
    ∃ slot rest, s.schedule = slot :: rest ∧
      ((t.seqState = .notConfigured ∧ (slot = .reset ∨ presentsCommand slot .init)) ∨
       (t.seqState = .configured ∧ s.seqState = .notConfigured ∧ ∃ n, presentsCommand slot (.setSequence n)) ∨
       (t.seqState = .configured ∧ (s.seqState = .active ∨ s.seqState = .finished) ∧
         (presentsCommand slot .stopOutput ∨
           ∃ e, s.pending.head? = some e ∧ s.lastHalf = some e.half ∧ (slot = .isr ∨ presents slot (instrOfEvent e)))) ∨
       ((t.seqState = .active ∨ t.seqState = .finished) ∧ s.seqState = .configured ∧ ∃ ch, presentsCommand slot (.startOutput ch)) ∨
       (t.seqState = .finished ∧ s.seqState = .active ∧ s.cfg.endPolicy = .halt ∧
         s.stepIndex.toNat + 1 = s.seqCount.toNat ∧ s.remain.toNat = s.cfg.half ∧
           ∃ e, s.pending.head? = some e ∧ (slot = .isr ∨ presents slot (instrOfEvent e))))

/-- 42_buffer_refill.md R209: under LOOP a run never finishes, never records a last half, and never stops by itself. -/
def Obligations.LoopNeverAutoStops : Prop :=
  ∀ s t : State, Consistent s → s.cfg.endPolicy = .loop → s.running = true → step s = .next t →
    t.seqState ≠ .finished ∧ t.lastHalf = none ∧
      (t.running = true ∨ ∃ slot rest, s.schedule = slot :: rest ∧
        (slot = .reset ∨ presentsCommand slot .stopOutput ∨ presentsCommand slot .init))

/-! ### Arithmetic -/

/-- 41_phase_accumulator.md R168: every code lies in [MID - PEAK, MID + PEAK] = [1, 2^D - 1]. -/
def Obligations.NextSampleInRange : Prop :=
  ∀ (c : Config) (phase inc amp : Word), c.wellFormed = true →
    c.mid - c.peak ≤ (nextSample c phase inc amp).1.toNat ∧ (nextSample c phase inc amp).1.toNat ≤ c.mid + c.peak ∧
    c.mid - c.peak = 1 ∧ c.mid + c.peak = 2 ^ c.dacBits - 1

/-- 41_phase_accumulator.md R169: continuity of synthesis, and the closed form of the k-th code. -/
def Obligations.SynthesisIsContinuous : Prop :=
  (∀ (c : Config) (inc amp p : Word) (n m : Nat),
    synth c inc amp p (n + m) = synth c inc amp p n ++ synth c inc amp (phaseAfter c inc p n) m ∧
      phaseAfter c inc p (n + m) = phaseAfter c inc (phaseAfter c inc p n) m) ∧
  (∀ (c : Config) (inc amp p : Word) (n k : Nat), c.paramsLegal = true → 1 ≤ k → k ≤ n →
    (synth c inc amp p n)[k - 1]? =
      some (BitVec.ofInt 16 ((c.mid : Int) + asr
        (sineAt c ((p.toNat + k * inc.toNat) % 2 ^ c.phaseBits / 2 ^ c.phaseFracBits) * clamp amp.toInt 0 65536) 16)))

/-- 41_phase_accumulator.md R160: the rule and its corner cases. -/
def Obligations.PhaseIncrementRule : Prop :=
  (∀ (c : Config) (f : Nat), c.paramsLegal = true →
    phaseIncrement c f = (2 * (f * 2 ^ c.phaseBits) + c.sampleRate) / (2 * c.sampleRate) % 2 ^ c.phaseBits ∧
    phaseIncrement c (f + c.sampleRate) = phaseIncrement c f ∧
    phaseIncrement c 0 = 0 ∧ phaseIncrement c c.sampleRate = 0 ∧
    (c.sampleRate % 2 = 0 → phaseIncrement c (c.sampleRate / 2) = 2 ^ (c.phaseBits - 1))) ∧
  phaseIncrement Config.reference 1000 = 4294967 ∧ phaseIncrement (Config.mini .halt) 3999 = 0

/-- 41_phase_accumulator.md R161: below the wrap, the increment is within half a unit: |inc * FS / 2^W - f| <= FS / 2^(W+1),
written without fractions. -/
def Obligations.PhaseIncrementWithinHalfUnit : Prop :=
  ∀ (c : Config) (f : Nat), c.paramsLegal = true → 2 * (f * 2 ^ c.phaseBits) < c.sampleRate * (2 * 2 ^ c.phaseBits - 1) →
    2 * |((phaseIncrement c f : Int) * c.sampleRate - f * 2 ^ c.phaseBits)| ≤ c.sampleRate

/-- 43_step_sequencer.md R232: true exactly for a positive multiple of the half-buffer-fill duration; the rule's examples. -/
def Obligations.DurationOkIsPositiveMultiple : Prop :=
  (∀ (c : Config) (d : Word), c.paramsLegal = true →
    (durationOk c d = true ↔ ∃ m, 0 < m ∧ d.toNat * c.sampleRate = m * (c.half * 1000000))) ∧
  durationOk Config.reference 250#32 = true ∧ durationOk Config.reference 300#32 = false ∧
  durationOk Config.reference 0#32 = false ∧ durationOk Config.reference 500#32 = true ∧
  durationOk Config.reference 4294967250#32 = true ∧
  durationOk { Config.reference with sampleRate := 44100, bufferSize := 882 } 10000#32 = true ∧
  durationOk { Config.reference with sampleRate := 48000, bufferSize := 200 } 6250#32 = true ∧
  durationOk { Config.reference with sampleRate := 48000, bufferSize := 200 } 2083#32 = false

/-- 43_step_sequencer.md R231: for an accepted duration the quotient is exact and a positive multiple of H; the rule's
examples. -/
def Obligations.StepSamplesExact : Prop :=
  (∀ (c : Config) (d : Word), c.paramsLegal = true → durationOk c d = true →
    (stepSamples c d).toNat * 1000000 = d.toNat * c.sampleRate ∧ 0 < (stepSamples c d).toNat ∧
      (stepSamples c d).toNat % c.half = 0) ∧
  stepSamples Config.reference 250#32 = 250#64 ∧ stepSamples Config.reference 1000#32 = 1000#64 ∧
  stepSamples Config.reference 4294967000#32 = 4294967000#64

/-- 41_phase_accumulator.md R166: the clamp, and the rule's examples. -/
def Obligations.AmplitudeClamped : Prop :=
  (∀ a : Word, (a.toInt ≤ 0 → clampAmp a = 0) ∧ (65536 ≤ a.toInt → clampAmp a = 65536) ∧
    (0 < a.toInt → a.toInt < 65536 → clampAmp a = a.toInt)) ∧
  clampAmp 0xFFFFFFFF#32 = 0 ∧ clampAmp 0x80000000#32 = 0 ∧ clampAmp 0x00020000#32 = 65536 ∧
  clampAmp 0x7FFFFFFF#32 = 65536 ∧ clampAmp 0x0000FFFF#32 = 65535

/-- 40_sine_table.md R146: the symmetry laws, for every table that meets R141's formula with L >= 2. -/
def Obligations.SineTableSymmetric : Prop :=
  ∀ c : Config, c.SineMeetsFormula → 2 ≤ c.tableLenLog2 →
    sineAt c 0 = 0 ∧ sineAt c (c.tableLen / 2) = 0 ∧ sineAt c (c.tableLen / 4) = (c.peak : Int) ∧
    sineAt c (3 * c.tableLen / 4) = -(c.peak : Int) ∧
    (∀ i, i < c.tableLen → sineAt c ((c.tableLen - i) % c.tableLen) = -sineAt c i) ∧
    (∀ i, i < c.tableLen / 2 → sineAt c (c.tableLen / 2 + i) = -sineAt c i) ∧
    (∀ i, i ≤ c.tableLen / 2 → sineAt c (c.tableLen / 2 - i) = sineAt c i)

/-- 40_sine_table.md R145: the mini table is what R141's formula gives. -/
def Obligations.MiniTableMeetsFormula : Prop := ∀ policy : EndPolicy, (Config.mini policy).SineMeetsFormula

/-- 40_sine_table.md R144: the reference table is what R141's formula gives. -/
def Obligations.ReferenceTableMeetsFormula : Prop := Config.reference.SineMeetsFormula

/-! ### Commands -/

/-- 44_controller.md R261: `INIT`, idle or running, with either timer outcome; nothing else changes but the model's own
draw fields. -/
def Obligations.InitResetsAndDraws : Prop :=
  ∀ s : State,
    (s.running = false →
      exec .init s = .next { s with
        seq := List.replicate s.cfg.maxSteps StepRec.zero, seqCount := 0#8, seqState := .notConfigured, channel := .ch0
        done := false, underrun := false, initDone := s.outcome .timerInit
        result := if s.outcome .timerInit then 0x01000100#32 else 0x01000004#32
        fixed := { s.fixed with timerInit := none }, drawCount := s.drawCount + 1 }) ∧
    (s.running = true →
      exec .init s = .next { s with
        running := false, pending := [], dmaPos := 0#16, lastHalf := none, stepIndex := 0#8, remain := 0#64, phase := 0#32
        seq := List.replicate s.cfg.maxSteps StepRec.zero, seqCount := 0#8, seqState := .notConfigured, channel := .ch0
        done := false, underrun := false, initDone := s.outcome .timerInit
        result := if s.outcome .timerInit then 0x01000100#32 else 0x01000004#32
        fixed := { s.fixed with timerInit := none }, drawCount := s.drawCount + 1 })

/-- 44_controller.md R264, 43_step_sequencer.md R230: an accepted `SET_SEQUENCE` replaces the stored sequence, and writes
nothing else but `SEQ_STATE` and `RESULT`. -/
def Obligations.SetSequenceCommits : Prop :=
  ∀ (s : State) (n : BitVec 8), s.running = false → 0 < n.toNat → n.toNat ≤ s.cfg.maxSteps →
    (∀ k, k < n.toNat → durationOk s.cfg (s.stageAt k).dur = true) →
    ∃ t, exec (.setSequence n) s = .next t ∧
      (∀ k, k < n.toNat → t.seqAt k =
        { freq := (s.stageAt k).freq, amp := (s.stageAt k).amp, dur := (s.stageAt k).dur
          inc := BitVec.ofNat 32 (phaseIncrement s.cfg (s.stageAt k).freq.toNat)
          samples := BitVec.ofNat 64 ((s.stageAt k).dur.toNat * s.cfg.sampleRate / 1000000) }) ∧
      (∀ k, n.toNat ≤ k → t.seqAt k = StepRec.zero) ∧ t.seq.length = s.cfg.maxSteps ∧
      t = { s with seq := t.seq, seqCount := n, seqState := .configured, result := 0x02000100#32 }

/-- 43_step_sequencer.md R233, 44_controller.md R264: a refused `SET_SEQUENCE` changes `RESULT` alone. -/
def Obligations.SetSequenceRejects : Prop :=
  ∀ (s : State) (n : BitVec 8),
    (s.running = true → exec (.setSequence n) s = .next { s with result := 0x02000003#32 }) ∧
    (s.running = false →
      (n.toNat = 0 ∨ s.cfg.maxSteps < n.toNat ∨ ∃ k, k < n.toNat ∧ durationOk s.cfg (s.stageAt k).dur = false) →
      exec (.setSequence n) s = .next { s with result := 0x02000001#32 })

/-- 44_controller.md R270 to R272: a refused `START_OUTPUT` changes `RESULT` alone (a collaborator's failure also uses the
two draws, which are the model's own fields). -/
def Obligations.StartRejected : Prop :=
  ∀ (s : State) (ch : Channel),
    (s.running = true → exec (.startOutput ch) s = .next { s with result := 0x03000003#32 }) ∧
    (s.running = false → s.seqState = .notConfigured → exec (.startOutput ch) s = .next { s with result := 0x03000002#32 }) ∧
    (s.running = false → s.seqState ≠ .notConfigured → s.initDone = false →
      exec (.startOutput ch) s = .next { s with result := 0x03000004#32 }) ∧
    (s.running = false → s.seqState ≠ .notConfigured → s.initDone = true →
      (s.outcome .dmaStart && (s.afterDraw .dmaStart).outcome .timerStart) = false →
      ∃ t, exec (.startOutput ch) s = .next t ∧
        t = { s with result := 0x03000004#32, fixed := t.fixed, drawCount := s.drawCount + 2 })

/-- 44_controller.md R270, 43_step_sequencer.md R235, R236, 42_buffer_refill.md R200, R202: an accepted `START_OUTPUT` arms
the run from step 0 and phase 0, prefills both halves, and becomes Running. The cursor it leaves, case by case: step 0 goes on
after both halves, or ends with the Second (a next step, LOOP or HALT follows), or ends with the First (then the Second is
filled from step 1, which goes on or ends, or from step 0 again under LOOP, or with the mid-scale code under HALT). Nothing
outside `BUF` and the named fields changes. The two draws it takes (`drawCount`, `fixed`) are the model's own fields (log
11). -/
def Obligations.StartPrefillsAndRuns : Prop :=
  ∀ (s : State) (ch : Channel), Consistent s → s.running = false → s.seqState = .configured → s.initDone = true →
    s.outcome .dmaStart = true → (s.afterDraw .dmaStart).outcome .timerStart = true →
    ∃ t, exec (.startOutput ch) s = .next t ∧
      (t.seqState = .active ∨ t.seqState = .finished) ∧
      (∀ j, j < s.cfg.half →
        some (t.bufAt j) = (synth s.cfg (s.seqAt 0).inc (s.seqAt 0).amp 0#32 s.cfg.half)[j]?) ∧
      (∀ j, j < s.cfg.half →
        some (t.bufAt (s.cfg.half + j)) =
          if (s.seqAt 0).samples.toNat ≠ s.cfg.half then
            (synth s.cfg (s.seqAt 0).inc (s.seqAt 0).amp (phaseAfter s.cfg (s.seqAt 0).inc 0#32 s.cfg.half) s.cfg.half)[j]?
          else if 1 < s.seqCount.toNat then
            (synth s.cfg (s.seqAt 1).inc (s.seqAt 1).amp (phaseAfter s.cfg (s.seqAt 0).inc 0#32 s.cfg.half) s.cfg.half)[j]?
          else if s.cfg.endPolicy = .loop then
            (synth s.cfg (s.seqAt 0).inc (s.seqAt 0).amp (phaseAfter s.cfg (s.seqAt 0).inc 0#32 s.cfg.half) s.cfg.half)[j]?
          else some (BitVec.ofNat 16 s.cfg.mid)) ∧
      (let H := s.cfg.half
       let n (k : Nat) := (s.seqAt k).samples.toNat
       let last (k : Nat) := s.seqCount.toNat = k + 1
       let afterFirst := phaseAfter s.cfg (s.seqAt 0).inc 0#32 H
       let afterBoth (k : Nat) := phaseAfter s.cfg (s.seqAt k).inc afterFirst H
       (2 * H < n 0 → cursorIs t .active 0 (n 0 - 2 * H) (afterBoth 0) none) ∧
       (n 0 = 2 * H → ¬ last 0 → cursorIs t .active 1 (n 1) (afterBoth 0) none) ∧
       (n 0 = 2 * H → last 0 → s.cfg.endPolicy = .loop → cursorIs t .active 0 (n 0) (afterBoth 0) none) ∧
       (n 0 = 2 * H → last 0 → s.cfg.endPolicy = .halt → cursorIs t .finished 0 0 (afterBoth 0) (some .second)) ∧
       (n 0 = H → ¬ last 0 → H < n 1 → cursorIs t .active 1 (n 1 - H) (afterBoth 1) none) ∧
       (n 0 = H → ¬ last 0 → n 1 = H → ¬ last 1 → cursorIs t .active 2 (n 2) (afterBoth 1) none) ∧
       (n 0 = H → n 1 = H → last 1 → s.cfg.endPolicy = .loop → cursorIs t .active 0 (n 0) (afterBoth 1) none) ∧
       (n 0 = H → n 1 = H → last 1 → s.cfg.endPolicy = .halt → cursorIs t .finished 1 0 (afterBoth 1) (some .second)) ∧
       (n 0 = H → last 0 → s.cfg.endPolicy = .loop → cursorIs t .active 0 (n 0) (afterBoth 0) none) ∧
       (n 0 = H → last 0 → s.cfg.endPolicy = .halt → cursorIs t .finished 0 0 afterFirst (some .first)) ∧
       ((n 0 = H ∨ n 0 = 2 * H ∨ 2 * H < n 0) ∧ (¬ last 0 → n 1 = H ∨ H < n 1))) ∧
      sameBytesOutside s t 0 s.cfg.bufferSize ∧
      t = { s with
        running := true, channel := ch, done := false, pending := [], dmaPos := 0#16, result := 0x03000100#32
        lastHalf := t.lastHalf, seqState := t.seqState, stepIndex := t.stepIndex, remain := t.remain, phase := t.phase
        mem := t.mem, fixed := t.fixed, drawCount := s.drawCount + 2 }

/-- 70_reset_and_hazards.md R356: what a successful start leaves depends on the configuration, the stored sequence and the
channel alone, not on any earlier run. -/
def Obligations.StartDependsOnSequenceOnly : Prop :=
  ∀ (s1 s2 t1 t2 : State) (ch : Channel), Consistent s1 → Consistent s2 → s1.cfg = s2.cfg → s1.seq = s2.seq →
    s1.seqCount = s2.seqCount → s1.running = false → s2.running = false →
    exec (.startOutput ch) s1 = .next t1 → exec (.startOutput ch) s2 = .next t2 →
    t1.running = true → t2.running = true →
    t1.channel = t2.channel ∧ t1.seqState = t2.seqState ∧ t1.stepIndex = t2.stepIndex ∧ t1.remain = t2.remain ∧
      t1.phase = t2.phase ∧ t1.pending = t2.pending ∧ t1.dmaPos = t2.dmaPos ∧ t1.lastHalf = t2.lastHalf ∧
      t1.done = t2.done ∧ (∀ j, j < s1.cfg.bufferSize → t1.bufAt j = t2.bufAt j) ∧ t1.mem = t2.mem

/-- 44_controller.md R262, R263: `STOP_OUTPUT` always succeeds, with the stop effects and nothing else; while Idle, in a
consistent state, only `RESULT` changes. -/
def Obligations.StopOutputAlwaysSucceeds : Prop :=
  decode (.cmd 0x00000004#32) = .ok .stopOutput ∧ ∀ s : State,
    exec .stopOutput s = .next { s with
      running := false, pending := [], dmaPos := 0#16, lastHalf := none, stepIndex := 0#8, remain := 0#64, phase := 0#32
      seqState := if s.seqCount = 0#8 then .notConfigured else .configured
      result := 0x04000100#32 } ∧
    (Consistent s → s.running = false → exec .stopOutput s = .next { s with result := 0x04000100#32 })

/-- 44_controller.md R275: `IS_RUNNING` writes the answer to `RESULT` and changes nothing else. -/
def Obligations.IsRunningAnswers : Prop :=
  decode (.cmd 0x00000005#32) = .ok .isRunning ∧ ∀ s : State,
    exec .isRunning s = .next { s with result := if s.running then 0x05010100#32 else 0x05000100#32 }

/-- 60_exceptions.md R303: an ILLEGAL word, by its `CMD` packet or by a host write, changes `RESULT` alone; the rule's
examples. -/
def Obligations.IllegalCommandChangesOnlyResult : Prop :=
  (∀ (s : State) (v : Word) (opc : Byte), decodeCmd v = .illegal opc →
    (∀ rest, s.schedule = .packet (.cmd v) :: rest →
      step s = .next { s with schedule := rest, result := ((v.extractLsb' 0 8).setWidth 32 <<< 24) ||| 5#32 }) ∧
    exec (.wr .word 0x00000#18 v) s = .next { s with result := ((v.extractLsb' 0 8).setWidth 32 <<< 24) ||| 5#32 }) ∧
  ∀ s : State,
    exec (.wr .word 0x00000#18 0x00000000#32) s = .next { s with result := 0x00000005#32 } ∧
    exec (.wr .word 0x00000#18 0x00000006#32) s = .next { s with result := 0x06000005#32 } ∧
    exec (.wr .word 0x00000#18 0x00000101#32) s = .next { s with result := 0x01000005#32 } ∧
    exec (.wr .word 0x00000#18 0x80000004#32) s = .next { s with result := 0x04000005#32 }

/-- 20_memory.md R84, 44_controller.md R260: a host write to `CMD` executes the command its word encodes. -/
def Obligations.WriteToCmdExecutesCommand : Prop :=
  ∀ (s : State) (v : Word) (i : Instr), decode (.cmd v) = .ok i → exec (.wr .word 0x00000#18 v) s = exec i s

/-- 60_exceptions.md R300, R301, 10_state.md R47: what any word written to `CMD` leaves in `RESULT`; in particular never 0
(70_reset_and_hazards.md R341). -/
def Obligations.CommandResultLayout : Prop :=
  ∀ (s : State) (v : Word), ∃ t, exec (.wr .word 0x00000#18 v) s = .next t ∧
    t.result.extractLsb' 24 8 = v.extractLsb' 0 8 ∧ t.result.extractLsb' 17 7 = 0#7 ∧ t.result.extractLsb' 9 7 = 0#7 ∧
    t.result.extractLsb' 4 4 = 0#4 ∧
    ((t.result.getLsbD 8 = true ∧ t.result.extractLsb' 0 4 = 0#4) ∨
      (t.result.getLsbD 8 = false ∧ t.result.getLsbD 16 = false ∧ 1 ≤ (t.result.extractLsb' 0 4).toNat ∧
        (t.result.extractLsb' 0 4).toNat ≤ 5)) ∧
    (t.result.getLsbD 16 = true → v = 0x00000005#32 ∧ s.running = true) ∧ t.result ≠ 0#32

/-! ### Events -/

/-- 42_buffer_refill.md R192 (with R193 and R194): the whole effect of a tick. -/
def Obligations.TickTransfersOneElement : Prop :=
  decode (.evt 0b00#2) = .ok .evTick ∧ ∀ s : State, s.cfg.paramsLegal = true → s.running = true →
    ∃ t, exec .evTick s = .next t ∧
      (t.dacOut s.channel).toNat = (s.bufAt s.dmaPos.toNat).toNat % 2 ^ s.cfg.dacBits ∧
      (∀ ch, ch ≠ s.channel → t.dacOut ch = s.dacOut ch) ∧
      t.trace = s.trace ++ [(s.channel, t.dacOut s.channel)] ∧
      t.dmaPos.toNat = (s.dmaPos.toNat + 1) % s.cfg.bufferSize ∧
      t.pending =
        (if s.dmaPos.toNat = s.cfg.half - 1 ∧ DmaEvent.ht ∉ s.pending then s.pending ++ [.ht]
         else if s.dmaPos.toNat = s.cfg.bufferSize - 1 ∧ DmaEvent.tc ∉ s.pending then s.pending ++ [.tc]
         else s.pending) ∧
      ((s.dmaPos.toNat < s.cfg.half ∧ DmaEvent.ht ∈ s.pending ∨ s.cfg.half ≤ s.dmaPos.toNat ∧ DmaEvent.tc ∈ s.pending) →
        t.underrun = true ∧ t.faults = { s.faults with deadlineMiss := true }) ∧
      (¬(s.dmaPos.toNat < s.cfg.half ∧ DmaEvent.ht ∈ s.pending ∨ s.cfg.half ≤ s.dmaPos.toNat ∧ DmaEvent.tc ∈ s.pending) →
        t.underrun = s.underrun ∧ t.faults = s.faults) ∧
      sameBytes s t ∧
      t = { s with
        dacOut0 := t.dacOut0, dacOut1 := t.dacOut1, trace := t.trace, dmaPos := t.dmaPos, pending := t.pending
        underrun := t.underrun, faults := t.faults }

/-- 42_buffer_refill.md R191, R196, R197: where the PACER and the ISR have no step. -/
def Obligations.AgentStepsNeedEnabling : Prop :=
  ∀ s : State,
    (s.running = false → exec .evTick s = .fault .pacerNotEnabled) ∧
    (s.pending = [] → exec .evHt s = .fault .isrNotEnabled ∧ exec .evTc s = .fault .isrNotEnabled) ∧
    (s.pending.head? = some .tc → exec .evHt s = .fault .eventNotHead) ∧
    (s.pending.head? = some .ht → exec .evTc s = .fault .eventNotHead)

/-- 42_buffer_refill.md R198, R199, R204: the service of the event that names `LAST_HALF` stops the run and sets `DONE`. -/
def Obligations.ServiceOfLastHalfAutoStops : Prop :=
  ∀ (s : State) (e : DmaEvent) (es : List DmaEvent), s.pending = e :: es → s.lastHalf = some e.half →
    exec (instrOfEvent e) s = .next { s with
      running := false, pending := [], dmaPos := 0#16, lastHalf := none, stepIndex := 0#8, remain := 0#64, phase := 0#32
      seqState := if s.seqCount = 0#8 then .notConfigured else .configured
      done := true }

/-- 42_buffer_refill.md R200, 43_step_sequencer.md R236, R237: the service of an event in the Active state refills the half
it names from the current step, carries the phase on, and advances the sequencer by H samples. -/
def Obligations.ActiveServiceRefills : Prop :=
  ∀ (s : State) (e : DmaEvent) (es : List DmaEvent), Consistent s → s.pending = e :: es → s.seqState = .active →
    ∃ t, exec (instrOfEvent e) s = .next t ∧
      (∀ j, j < s.cfg.half → some (t.bufAt (halfBase s.cfg e.half + j)) =
        (synth s.cfg (s.seqAt s.stepIndex.toNat).inc (s.seqAt s.stepIndex.toNat).amp s.phase s.cfg.half)[j]?) ∧
      sameBytesOutside s t (halfBase s.cfg e.half) s.cfg.half ∧
      t.phase = phaseAfter s.cfg (s.seqAt s.stepIndex.toNat).inc s.phase s.cfg.half ∧
      (s.cfg.half < s.remain.toNat →
        t.seqState = .active ∧ t.stepIndex = s.stepIndex ∧ t.remain.toNat = s.remain.toNat - s.cfg.half ∧
          t.lastHalf = s.lastHalf) ∧
      (s.remain.toNat = s.cfg.half → s.stepIndex.toNat + 1 < s.seqCount.toNat →
        t.seqState = .active ∧ t.stepIndex.toNat = s.stepIndex.toNat + 1 ∧
          t.remain = (s.seqAt (s.stepIndex.toNat + 1)).samples ∧ t.lastHalf = s.lastHalf) ∧
      (s.remain.toNat = s.cfg.half → s.stepIndex.toNat + 1 = s.seqCount.toNat → s.cfg.endPolicy = .loop →
        t.seqState = .active ∧ t.stepIndex = 0#8 ∧ t.remain = (s.seqAt 0).samples ∧ t.lastHalf = s.lastHalf) ∧
      (s.remain.toNat = s.cfg.half → s.stepIndex.toNat + 1 = s.seqCount.toNat → s.cfg.endPolicy = .halt →
        t.seqState = .finished ∧ t.stepIndex = s.stepIndex ∧ t.remain = 0#64 ∧ t.lastHalf = some e.half) ∧
      t = { s with
        pending := es, mem := t.mem, phase := t.phase, seqState := t.seqState, stepIndex := t.stepIndex, remain := t.remain
        lastHalf := t.lastHalf }

/-- 42_buffer_refill.md R201: in the Finished state the service of the other event fills its half with the mid-scale
code. -/
def Obligations.FinishedServiceFillsMidScale : Prop :=
  ∀ (s : State) (e : DmaEvent) (es : List DmaEvent), s.pending = e :: es → s.seqState = .finished →
    s.lastHalf ≠ some e.half →
    ∃ t, exec (instrOfEvent e) s = .next t ∧
      (∀ j, j < s.cfg.half → t.bufAt (halfBase s.cfg e.half + j) = BitVec.ofNat 16 s.cfg.mid) ∧
      sameBytesOutside s t (halfBase s.cfg e.half) s.cfg.half ∧ t = { s with pending := es, mem := t.mem }

/-- 42_buffer_refill.md R205: right after an event is raised, H ticks without its service miss no deadline, and the (H+1)-th
does: `UNDERRUN` and `DEADLINE_MISS`. -/
def Obligations.DeadlineMissedExactlyPastDeadline : Prop :=
  ∀ (s : State) (e : DmaEvent) (n : Nat), s.cfg.paramsLegal = true → s.running = true → s.pending = [e] →
    s.dmaPos.toNat = (match e with | .ht => s.cfg.half | .tc => 0) → s.underrun = false → s.faults.deadlineMiss = false →
    n ≤ s.cfg.half + 1 → s.schedule = List.replicate n tickSlot →
    ∃ t, Sys2Proof.core.run n s = .next t ∧ t.schedule = [] ∧
      t.underrun = decide (n = s.cfg.half + 1) ∧ t.faults.deadlineMiss = decide (n = s.cfg.half + 1)

/-- 42_buffer_refill.md R192, R193: the H ticks that read a half send its elements in order on the active channel, then
raise the event that names it. -/
def Obligations.TicksPlayOneHalf : Prop :=
  ∀ (s : State) (e : DmaEvent), s.cfg.paramsLegal = true → s.running = true → s.pending = [] →
    s.dmaPos.toNat = halfBase s.cfg e.half → s.schedule = List.replicate s.cfg.half tickSlot →
    ∃ t, Sys2Proof.core.run s.cfg.half s = .next t ∧
      t.trace = s.trace ++
        (List.range s.cfg.half).map (fun j => (s.channel, dacCode s.cfg (s.bufAt (halfBase s.cfg e.half + j)))) ∧
      t.pending = [e] ∧ t.dmaPos.toNat = (halfBase s.cfg e.half + s.cfg.half) % s.cfg.bufferSize ∧
      t.underrun = s.underrun ∧ t.faults = s.faults ∧ sameBytes s t

/-! ### Host accesses -/

/-- 20_memory.md R83: what a read of each register returns; nothing else changes. -/
def Obligations.ReadRegisters : Prop :=
  ∀ s : State,
    exec (.rd .word 0x00000#18) s = .next { s with readData := 0#32 } ∧
    exec (.rd .word 0x00004#18) s = .next { s with readData := s.result } ∧
    exec (.rd .word 0x00008#18) s = .next { s with readData := s.statusWord } ∧
    exec (.rd .word 0x0000C#18) s = .next { s with readData := s.phase } ∧
    exec (.rd .word 0x00010#18) s = .next { s with readData := s.remain.extractLsb' 0 32 } ∧
    exec (.rd .word 0x00014#18) s = .next { s with readData := s.remain.extractLsb' 32 32 } ∧
    exec (.rd .word 0x00018#18) s = .next { s with readData := s.dmaPos.setWidth 32 } ∧
    exec (.rd .word 0x0001C#18) s = .next { s with readData := param0 s.cfg } ∧
    exec (.rd .word 0x00020#18) s = .next { s with readData := param1 s.cfg } ∧
    exec (.rd .word 0x00024#18) s = .next { s with readData := param2 s.cfg } ∧
    exec (.rd .word 0x00028#18) s = .next { s with readData := s.seqCount.setWidth 32 }

/-- 10_state.md R48, R51: the fields of `STATUS` and of the parameter registers; every reserved bit is 0. -/
def Obligations.StatusAndParameterFields : Prop :=
  (∀ s : State,
    s.statusWord.getLsbD 0 = s.running ∧ s.statusWord.getLsbD 1 = s.channel.bit ∧
    s.statusWord.extractLsb' 2 2 =
      (match s.seqState with | .notConfigured => 0#2 | .configured => 1#2 | .active => 2#2 | .finished => 3#2) ∧
    s.statusWord.getLsbD 4 = s.initDone ∧ s.statusWord.getLsbD 5 = s.done ∧ s.statusWord.getLsbD 6 = s.underrun ∧
    s.statusWord.getLsbD 7 = decide (DmaEvent.ht ∈ s.pending) ∧ s.statusWord.getLsbD 8 = decide (DmaEvent.tc ∈ s.pending) ∧
    s.statusWord.getLsbD 9 = decide (s.pending.head? = some .tc) ∧
    s.statusWord.extractLsb' 10 2 =
      (match s.lastHalf with | none => 0#2 | some .first => 1#2 | some .second => 2#2) ∧
    s.statusWord.extractLsb' 12 4 = 0#4 ∧ s.statusWord.extractLsb' 16 8 = s.stepIndex ∧
    s.statusWord.extractLsb' 24 8 = 0#8) ∧
  (∀ (c : Config) (n : Nat), (State.initial c n).statusWord = 0x00000000#32) ∧
  (∀ c : Config, c.paramsLegal = true →
    ((param0 c).extractLsb' 0 8).toNat = c.tableLenLog2 ∧ ((param0 c).extractLsb' 8 8).toNat = c.phaseFracBits ∧
    ((param0 c).extractLsb' 16 8).toNat = c.dacBits ∧ ((param0 c).extractLsb' 24 8).toNat = c.maxSteps ∧
    ((param1 c).extractLsb' 0 17).toNat = c.bufferSize ∧ (param1 c).extractLsb' 17 7 = 0#7 ∧
    (param1 c).getLsbD 24 = decide (c.endPolicy = .loop) ∧ (param1 c).extractLsb' 25 7 = 0#7 ∧
    (param2 c).toNat = c.sampleRate) ∧
  param0 Config.reference = 0x100C1808#32 ∧ param1 Config.reference = 0x000001F4#32 ∧
  param2 Config.reference = 0x000F4240#32

/-- 20_memory.md R83, 10_state.md R53: reads of the staging slots, and of the reserved offsets, which read 0. -/
def Obligations.ReadStageAndReserved : Prop :=
  ∀ s : State, s.cfg.paramsLegal = true →
    (∀ k, k < s.cfg.maxSteps →
      exec (.rd .word (BitVec.ofNat 18 (0x100 + 16 * k))) s = .next { s with readData := (s.stageAt k).freq } ∧
      exec (.rd .word (BitVec.ofNat 18 (0x104 + 16 * k))) s = .next { s with readData := (s.stageAt k).amp } ∧
      exec (.rd .word (BitVec.ofNat 18 (0x108 + 16 * k))) s = .next { s with readData := (s.stageAt k).dur } ∧
      exec (.rd .word (BitVec.ofNat 18 (0x10C + 16 * k))) s = .next { s with readData := 0#32 }) ∧
    (∀ off : Offset, off.toNat % 4 = 0 → off.toNat < 0x30000 →
      (0x02C ≤ off.toNat ∧ off.toNat < 0x100 ∨ 0x100 + 16 * s.cfg.maxSteps ≤ off.toNat ∧ off.toNat < 0x1000 ∨
        0x1000 + 2 * s.cfg.bufferSize ≤ off.toNat) →
      exec (.rd .word off) s = .next { s with readData := 0#32 })

/-- 10_state.md R52, 20_memory.md R81, R83, R86: the `BUF` window, little-endian; writes to it are ignored. That the data go to
`readData`, a halfword zero-extended, is the model's choice (log 8). -/
def Obligations.ReadBuffer : Prop :=
  ∀ (s : State) (j : Nat), s.cfg.paramsLegal = true → j < s.cfg.bufferSize →
    exec (.rd .half (BitVec.ofNat 18 (0x1000 + 2 * j))) s = .next { s with readData := (s.bufAt j).setWidth 32 } ∧
    (j % 2 = 0 →
      ∃ t, exec (.rd .word (BitVec.ofNat 18 (0x1000 + 2 * j))) s = .next t ∧
        t.readData.extractLsb' 0 16 = s.bufAt j ∧ t.readData.extractLsb' 16 16 = s.bufAt (j + 1) ∧
        t = { s with readData := t.readData }) ∧
    (∀ v, j % 2 = 0 → exec (.wr .word (BitVec.ofNat 18 (0x1000 + 2 * j)) v) s = .next s)

/-- 20_memory.md R82: the accesses the block admits, and no others; at another the host is stuck. That the whole step then
stops with the fault `hostStuck` is the model's reading (log 6). -/
def Obligations.HostAccessAdmittedExactly : Prop :=
  ∀ (s : State) (off : Offset) (v : Word), s.cfg.paramsLegal = true →
    (off.toNat % 4 = 0 ∧ off.toNat ≤ 0x2FFFF →
      (∃ d, exec (.rd .word off) s = .next { s with readData := d }) ∧ ∃ t, exec (.wr .word off v) s = .next t) ∧
    (¬(off.toNat % 4 = 0 ∧ off.toNat ≤ 0x2FFFF) →
      exec (.rd .word off) s = .fault .hostStuck ∧ exec (.wr .word off v) s = .fault .hostStuck) ∧
    (off.toNat % 2 = 0 ∧ 0x1000 ≤ off.toNat ∧ off.toNat ≤ 0x1000 + 2 * s.cfg.bufferSize - 1 →
      ∃ d, exec (.rd .half off) s = .next { s with readData := d }) ∧
    (¬(off.toNat % 2 = 0 ∧ 0x1000 ≤ off.toNat ∧ off.toNat ≤ 0x1000 + 2 * s.cfg.bufferSize - 1) →
      exec (.rd .half off) s = .fault .hostStuck) ∧
    exec (.wr .half off v) s = .fault .hostStuck ∧
    (∀ (dir : Direction) (size : BitVec 3) (rest : List Slot), size ≠ 2#3 → size ≠ 4#3 →
      s.schedule = .packet (.bus dir size off v) :: rest → step s = .fault .hostStuck)

/-- 20_memory.md R84, 10_state.md R50: a write to a staging slot changes that field of that slot alone. -/
def Obligations.WriteStageSlot : Prop :=
  ∀ (s : State) (k : Nat) (v : Word), Consistent s → k < s.cfg.maxSteps →
    exec (.wr .word (BitVec.ofNat 18 (0x100 + 16 * k)) v) s =
      .next { s with stage := s.stage.set k { s.stageAt k with freq := v } } ∧
    exec (.wr .word (BitVec.ofNat 18 (0x104 + 16 * k)) v) s =
      .next { s with stage := s.stage.set k { s.stageAt k with amp := v } } ∧
    exec (.wr .word (BitVec.ofNat 18 (0x108 + 16 * k)) v) s =
      .next { s with stage := s.stage.set k { s.stageAt k with dur := v } } ∧
    exec (.wr .word (BitVec.ofNat 18 (0x10C + 16 * k)) v) s = .next s

/-- 10_state.md R53, 20_memory.md R84, R86: writes to read-only registers, to the `BUF` window and to reserved offsets are
ignored. -/
def Obligations.OtherWritesIgnored : Prop :=
  ∀ (s : State) (off : Offset) (v : Word), off.toNat % 4 = 0 → off.toNat < 0x30000 → off.toNat ≠ 0 →
    (off.toNat < 0x100 ∨ 0x100 + 16 * s.cfg.maxSteps ≤ off.toNat) → exec (.wr .word off v) s = .next s

/-- 20_memory.md R85: offsets and host addresses of the window correspond, whatever `BLOCK_BASE` is. -/
def Obligations.HostAddressesOfTheWindow : Prop :=
  (∀ off : Offset, off.toNat < 0x30000 → offsetOfHostAddress (hostAddress off) = some off) ∧
  (∀ a : Nat, (∃ off, offsetOfHostAddress a = some off) ↔ Config.blockBase ≤ a ∧ a < Config.blockBase + 0x30000)
end

