-- ==== Sys2Proof/Laws/Checks.lean ====
section
/-! SUPPORT. The Boolean checks of the model as propositions, one lemma each. -/

namespace Sys2Proof

/-- 00_scope.md R10, R12. -/
theorem Config.paramsLegal_iff (c : Config) :
    c.paramsLegal = true ↔
      1 ≤ c.tableLenLog2 ∧ c.tableLenLog2 ≤ 16 ∧ c.tableLenLog2 + c.phaseFracBits ≤ 32 ∧ 2 ≤ c.dacBits ∧ c.dacBits ≤ 16 ∧
        c.bufferSize % 2 = 0 ∧ 2 ≤ c.bufferSize ∧ c.bufferSize ≤ 65536 ∧ 1 ≤ c.sampleRate ∧ c.sampleRate ≤ 2 ^ 32 - 1 ∧
        1 ≤ c.maxSteps ∧ c.maxSteps ≤ 240 := by
  simp only [Config.paramsLegal, Bool.and_eq_true, decide_eq_true_eq, and_assoc]

/-- The table's length and bound (40_sine_table.md R140, R141). -/
theorem Config.tableFits_iff (c : Config) :
    c.tableFits = true ↔ c.sine.length = c.tableLen ∧ ∀ v ∈ c.sine, -(c.peak : Int) ≤ v ∧ v ≤ (c.peak : Int) := by
  simp only [Config.tableFits, Bool.and_eq_true, decide_eq_true_eq, List.all_eq_true]

theorem Config.wellFormed_iff (c : Config) : c.wellFormed = true ↔ c.paramsLegal = true ∧ c.tableFits = true := by
  simp only [Config.wellFormed, Bool.and_eq_true]

/-- R141's formula gives the table its length and its bound (40_sine_table.md R141: "Every entry lies in [-PEAK, PEAK]"). -/
theorem Config.SineMeetsFormula.tableFits (c : Config) (h : c.SineMeetsFormula) : c.tableFits = true := by
  refine c.tableFits_iff.2 ⟨h.1, fun v hv => ?_⟩
  obtain ⟨i, hi, rfl⟩ := List.getElem_of_mem hv
  have hv := h.2 i (h.1 ▸ hi) _ rfl
  have hp : (0 : ℝ) ≤ (c.peak : ℝ) := Nat.cast_nonneg _
  have h1 := mul_le_mul_of_nonneg_left (Real.sin_le_one (2 * Real.pi * (i : ℝ) / (c.tableLen : ℝ))) hp
  have h2 := mul_le_mul_of_nonneg_left (Real.neg_one_le_sin (2 * Real.pi * (i : ℝ) / (c.tableLen : ℝ))) hp
  rw [show Machine.sineAt c i = c.sine[i] by simp [Machine.sineAt, hi]] at hv
  generalize (c.peak : ℝ) * Real.sin (2 * Real.pi * (i : ℝ) / (c.tableLen : ℝ)) = x at *
  have up : ∀ y : ℝ, y ≤ c.peak → ⌊y + 1 / 2⌋ ≤ (c.peak : Int) := fun y hy =>
    Int.lt_add_one_iff.1 (Int.floor_lt.2 (by push_cast; linarith))
  have low : ∀ y : ℝ, 0 ≤ y → 0 ≤ ⌊y + 1 / 2⌋ := fun y hy => Int.floor_nonneg.2 (by linarith)
  rw [hv]
  split
  · have := up x (by linarith)
    have := low x (by assumption)
    omega
  · have := up (-x) (by linarith)
    have := low (-x) (by linarith)
    omega

/-- A configuration of the block passes the checks that a computation can make. -/
theorem Config.Legal.wellFormed (c : Config) (h : c.Legal) : c.wellFormed = true :=
  c.wellFormed_iff.2 ⟨h.1, h.2.tableFits⟩

/-- Construction builds legal configurations only (00_scope.md R12, 40_sine_table.md R141). -/
theorem Config.build_legal (c d : Config) (h : c.SineMeetsFormula) (hb : c.build h = some d) : d = c ∧ d.Legal := by
  simp only [Config.build] at hb
  split at hb
  · cases hb
    exact ⟨rfl, by assumption, h⟩
  · cases hb

/-- The buffer is two halves of at least one element (00_scope.md R10, R11). -/
theorem Config.two_mul_half (c : Config) (h : c.paramsLegal = true) : c.bufferSize = 2 * c.half := by
  have := c.paramsLegal_iff.1 h
  simp only [Config.half]
  omega

theorem Config.half_pos (c : Config) (h : c.paramsLegal = true) : 0 < c.half := by
  have := c.paramsLegal_iff.1 h
  simp only [Config.half]
  omega

/-- 20_memory.md R82. -/
theorem wordAccessOk_iff (a : Nat) : wordAccessOk a = true ↔ a % 4 = 0 ∧ a < 0x30000 := by
  simp only [wordAccessOk, Bool.and_eq_true, decide_eq_true_eq]

/-- 20_memory.md R82. -/
theorem halfReadOk_iff (c : Config) (a : Nat) :
    halfReadOk c a = true ↔ a % 2 = 0 ∧ 0x1000 ≤ a ∧ a < 0x1000 + 2 * c.bufferSize := by
  simp only [halfReadOk, Bool.and_eq_true, decide_eq_true_eq, and_assoc]

namespace Machine

/-- 10_state.md R45. -/
theorem inStage_iff (c : Config) (a : Nat) : inStage c a = true ↔ 0x100 ≤ a ∧ a < 0x100 + 16 * c.maxSteps := by
  simp only [inStage, Bool.and_eq_true, decide_eq_true_eq]

/-- 10_state.md R45. -/
theorem inBuf_iff (c : Config) (a : Nat) : inBuf c a = true ↔ 0x1000 ≤ a ∧ a < 0x1000 + 2 * c.bufferSize := by
  simp only [inBuf, Bool.and_eq_true, decide_eq_true_eq]

/-- 43_step_sequencer.md R232. -/
theorem durationOk_iff (c : Config) (d : Word) :
    durationOk c d = true ↔ 0 < d.toNat ∧ d.toNat * c.halfUsDen % c.halfUsNum = 0 := by
  simp only [durationOk, Bool.and_eq_true, decide_eq_true_eq]

/-- 43_step_sequencer.md R230. -/
theorem configureOk_iff (s : State) (n : Nat) :
    configureOk s n = true ↔ 0 < n ∧ n ≤ s.cfg.maxSteps ∧ ∀ k, k < n → durationOk s.cfg (s.stageAt k).dur = true := by
  simp only [configureOk, Bool.and_eq_true, decide_eq_true_eq, List.all_eq_true, List.mem_range, and_assoc]

/-- 42_buffer_refill.md R194. -/
theorem State.underrunAt_iff (s : State) (j : Nat) :
    s.underrunAt j = true ↔ j < s.cfg.half ∧ DmaEvent.ht ∈ s.pending ∨ s.cfg.half ≤ j ∧ DmaEvent.tc ∈ s.pending := by
  simp only [State.underrunAt, Bool.or_eq_true, Bool.and_eq_true, decide_eq_true_eq, List.contains_iff_mem]

end Machine

end Sys2Proof
end

