-- ==== Sys2Proof/Laws/Arithmetic.lean ====
section
/-! SUPPORT. The bounds and exact values of the arithmetic operations: nothing wraps in the widths that State holds. -/

namespace Sys2Proof

/-- A W-bit number fits a word (00_scope.md R12). -/
theorem Config.phaseRange_le (c : Config) (h : c.paramsLegal = true) : 2 ^ c.phaseBits ≤ 2 ^ 32 :=
  Nat.pow_le_pow_right (by norm_num) (c.paramsLegal_iff.1 h).2.2.1

/-- A D-bit code fits an element (00_scope.md R12). -/
theorem Config.codeRange_le (c : Config) (h : c.paramsLegal = true) : 2 ^ c.dacBits ≤ 2 ^ 16 :=
  Nat.pow_le_pow_right (by norm_num) (c.paramsLegal_iff.1 h).2.2.2.2.1

namespace Machine

/-- 41_phase_accumulator.md R164. -/
theorem advancePhase_toNat (c : Config) (h : c.paramsLegal = true) (p i : Word) :
    (advancePhase c p i).toNat = (p.toNat + i.toNat) % 2 ^ c.phaseBits := by
  simp only [advancePhase, BitVec.toNat_ofNat]
  exact Nat.mod_eq_of_lt (lt_of_lt_of_le (Nat.mod_lt _ (by positivity)) (c.phaseRange_le h))

theorem phaseAfter_lt (c : Config) (h : c.paramsLegal = true) (i : Word) (n : Nat) (p : Word)
    (hp : p.toNat < 2 ^ c.phaseBits) : (phaseAfter c i p n).toNat < 2 ^ c.phaseBits := by
  induction n generalizing p with
  | zero => exact hp
  | succ n ih =>
    apply ih
    rw [advancePhase_toNat c h]
    exact Nat.mod_lt _ (by positivity)

/-- 42_buffer_refill.md R192. -/
theorem nextPos_toNat (c : Config) (h : c.paramsLegal = true) (p : BitVec 16) :
    (nextPos c p).toNat = (p.toNat + 1) % c.bufferSize := by
  have hp := c.paramsLegal_iff.1 h
  simp only [nextPos, BitVec.toNat_ofNat]
  exact Nat.mod_eq_of_lt (lt_of_lt_of_le (Nat.mod_lt _ (by omega)) (by omega))

/-- 42_buffer_refill.md R192. -/
theorem dacCode_toNat (c : Config) (h : c.paramsLegal = true) (v : Sample) :
    (dacCode c v).toNat = v.toNat % 2 ^ c.dacBits := by
  simp only [dacCode, BitVec.toNat_ofNat]
  exact Nat.mod_eq_of_lt (lt_of_lt_of_le (Nat.mod_lt _ (by positivity)) (c.codeRange_le h))

/-- 40_sine_table.md R141. -/
theorem sineAt_bound (c : Config) (h : c.tableFits = true) (i : Nat) :
    -(c.peak : Int) ≤ sineAt c i ∧ sineAt c i ≤ (c.peak : Int) := by
  rw [Config.tableFits_iff] at h
  unfold sineAt List.getD
  cases hi : c.sine[i]? with
  | none => simp
  | some v => exact h.2 v (List.mem_of_getElem? hi)

/-- 42_buffer_refill.md R190: a half lies in the buffer. -/
theorem halfBase_le (c : Config) (h : c.paramsLegal = true) (e : Half) : halfBase c e + c.half ≤ c.bufferSize := by
  have := c.two_mul_half h
  cases e <;> simp only [halfBase] <;> omega

theorem ofBool_getLsbD_zero (b : Bool) : (BitVec.ofBool b).getLsbD 0 = b := by cases b <;> rfl

end Machine

end Sys2Proof
end

