-- ==== Sys2Proof/Laws/State.lean ====
section
/-! SUPPORT. For each named update of the state: what it makes of each field. -/

namespace Sys2Proof.Machine

variable (s : State)

/-! storeSamples -/

@[simp] theorem State.storeSamples_cfg (k : Nat) (v : List Sample) : (s.storeSamples k v).cfg = s.cfg := rfl
@[simp] theorem State.storeSamples_running (k : Nat) (v : List Sample) : (s.storeSamples k v).running = s.running := rfl
@[simp] theorem State.storeSamples_channel (k : Nat) (v : List Sample) : (s.storeSamples k v).channel = s.channel := rfl
@[simp] theorem State.storeSamples_seqState (k : Nat) (v : List Sample) : (s.storeSamples k v).seqState = s.seqState := rfl
@[simp] theorem State.storeSamples_stepIndex (k : Nat) (v : List Sample) : (s.storeSamples k v).stepIndex = s.stepIndex := rfl
@[simp] theorem State.storeSamples_remain (k : Nat) (v : List Sample) : (s.storeSamples k v).remain = s.remain := rfl
@[simp] theorem State.storeSamples_phase (k : Nat) (v : List Sample) : (s.storeSamples k v).phase = s.phase := rfl
@[simp] theorem State.storeSamples_seqCount (k : Nat) (v : List Sample) : (s.storeSamples k v).seqCount = s.seqCount := rfl
@[simp] theorem State.storeSamples_seq (k : Nat) (v : List Sample) : (s.storeSamples k v).seq = s.seq := rfl
@[simp] theorem State.storeSamples_stage (k : Nat) (v : List Sample) : (s.storeSamples k v).stage = s.stage := rfl
@[simp] theorem State.storeSamples_mem (k : Nat) (v : List Sample) : (s.storeSamples k v).mem = s.mem.store (bufAddr k) (v.flatMap sampleBytes) := rfl
@[simp] theorem State.storeSamples_dmaPos (k : Nat) (v : List Sample) : (s.storeSamples k v).dmaPos = s.dmaPos := rfl
@[simp] theorem State.storeSamples_pending (k : Nat) (v : List Sample) : (s.storeSamples k v).pending = s.pending := rfl
@[simp] theorem State.storeSamples_lastHalf (k : Nat) (v : List Sample) : (s.storeSamples k v).lastHalf = s.lastHalf := rfl
@[simp] theorem State.storeSamples_initDone (k : Nat) (v : List Sample) : (s.storeSamples k v).initDone = s.initDone := rfl
@[simp] theorem State.storeSamples_done (k : Nat) (v : List Sample) : (s.storeSamples k v).done = s.done := rfl
@[simp] theorem State.storeSamples_underrun (k : Nat) (v : List Sample) : (s.storeSamples k v).underrun = s.underrun := rfl
@[simp] theorem State.storeSamples_result (k : Nat) (v : List Sample) : (s.storeSamples k v).result = s.result := rfl
@[simp] theorem State.storeSamples_dacOut0 (k : Nat) (v : List Sample) : (s.storeSamples k v).dacOut0 = s.dacOut0 := rfl
@[simp] theorem State.storeSamples_dacOut1 (k : Nat) (v : List Sample) : (s.storeSamples k v).dacOut1 = s.dacOut1 := rfl
@[simp] theorem State.storeSamples_faults (k : Nat) (v : List Sample) : (s.storeSamples k v).faults = s.faults := rfl
@[simp] theorem State.storeSamples_trace (k : Nat) (v : List Sample) : (s.storeSamples k v).trace = s.trace := rfl
@[simp] theorem State.storeSamples_toOutside (k : Nat) (v : List Sample) : (s.storeSamples k v).toOutside = s.toOutside := rfl
@[simp] theorem State.storeSamples_epoch (k : Nat) (v : List Sample) : (s.storeSamples k v).epoch = s.epoch := rfl

/-! emit -/

@[simp] theorem State.emit_cfg (ch : Channel) (v : Sample) : (s.emit ch v).cfg = s.cfg := by cases ch <;> rfl
@[simp] theorem State.emit_running (ch : Channel) (v : Sample) : (s.emit ch v).running = s.running := by cases ch <;> rfl
@[simp] theorem State.emit_channel (ch : Channel) (v : Sample) : (s.emit ch v).channel = s.channel := by cases ch <;> rfl
@[simp] theorem State.emit_seqState (ch : Channel) (v : Sample) : (s.emit ch v).seqState = s.seqState := by cases ch <;> rfl
@[simp] theorem State.emit_stepIndex (ch : Channel) (v : Sample) : (s.emit ch v).stepIndex = s.stepIndex := by cases ch <;> rfl
@[simp] theorem State.emit_remain (ch : Channel) (v : Sample) : (s.emit ch v).remain = s.remain := by cases ch <;> rfl
@[simp] theorem State.emit_phase (ch : Channel) (v : Sample) : (s.emit ch v).phase = s.phase := by cases ch <;> rfl
@[simp] theorem State.emit_seqCount (ch : Channel) (v : Sample) : (s.emit ch v).seqCount = s.seqCount := by cases ch <;> rfl
@[simp] theorem State.emit_seq (ch : Channel) (v : Sample) : (s.emit ch v).seq = s.seq := by cases ch <;> rfl
@[simp] theorem State.emit_stage (ch : Channel) (v : Sample) : (s.emit ch v).stage = s.stage := by cases ch <;> rfl
@[simp] theorem State.emit_mem (ch : Channel) (v : Sample) : (s.emit ch v).mem = s.mem := by cases ch <;> rfl
@[simp] theorem State.emit_dmaPos (ch : Channel) (v : Sample) : (s.emit ch v).dmaPos = s.dmaPos := by cases ch <;> rfl
@[simp] theorem State.emit_pending (ch : Channel) (v : Sample) : (s.emit ch v).pending = s.pending := by cases ch <;> rfl
@[simp] theorem State.emit_lastHalf (ch : Channel) (v : Sample) : (s.emit ch v).lastHalf = s.lastHalf := by cases ch <;> rfl
@[simp] theorem State.emit_initDone (ch : Channel) (v : Sample) : (s.emit ch v).initDone = s.initDone := by cases ch <;> rfl
@[simp] theorem State.emit_done (ch : Channel) (v : Sample) : (s.emit ch v).done = s.done := by cases ch <;> rfl
@[simp] theorem State.emit_underrun (ch : Channel) (v : Sample) : (s.emit ch v).underrun = s.underrun := by cases ch <;> rfl
@[simp] theorem State.emit_result (ch : Channel) (v : Sample) : (s.emit ch v).result = s.result := by cases ch <;> rfl
@[simp] theorem State.emit_faults (ch : Channel) (v : Sample) : (s.emit ch v).faults = s.faults := by cases ch <;> rfl
@[simp] theorem State.emit_trace (ch : Channel) (v : Sample) : (s.emit ch v).trace = s.trace ++ [(ch, v)] := by cases ch <;> rfl
@[simp] theorem State.emit_toOutside (ch : Channel) (v : Sample) : (s.emit ch v).toOutside = s.toOutside := by cases ch <;> rfl

/-! addFault -/

@[simp] theorem State.addFault_cfg (e : ModelFault) : (s.addFault e).cfg = s.cfg := rfl
@[simp] theorem State.addFault_running (e : ModelFault) : (s.addFault e).running = s.running := rfl
@[simp] theorem State.addFault_channel (e : ModelFault) : (s.addFault e).channel = s.channel := rfl
@[simp] theorem State.addFault_seqState (e : ModelFault) : (s.addFault e).seqState = s.seqState := rfl
@[simp] theorem State.addFault_stepIndex (e : ModelFault) : (s.addFault e).stepIndex = s.stepIndex := rfl
@[simp] theorem State.addFault_remain (e : ModelFault) : (s.addFault e).remain = s.remain := rfl
@[simp] theorem State.addFault_phase (e : ModelFault) : (s.addFault e).phase = s.phase := rfl
@[simp] theorem State.addFault_seqCount (e : ModelFault) : (s.addFault e).seqCount = s.seqCount := rfl
@[simp] theorem State.addFault_seq (e : ModelFault) : (s.addFault e).seq = s.seq := rfl
@[simp] theorem State.addFault_stage (e : ModelFault) : (s.addFault e).stage = s.stage := rfl
@[simp] theorem State.addFault_mem (e : ModelFault) : (s.addFault e).mem = s.mem := rfl
@[simp] theorem State.addFault_dmaPos (e : ModelFault) : (s.addFault e).dmaPos = s.dmaPos := rfl
@[simp] theorem State.addFault_pending (e : ModelFault) : (s.addFault e).pending = s.pending := rfl
@[simp] theorem State.addFault_lastHalf (e : ModelFault) : (s.addFault e).lastHalf = s.lastHalf := rfl
@[simp] theorem State.addFault_initDone (e : ModelFault) : (s.addFault e).initDone = s.initDone := rfl
@[simp] theorem State.addFault_done (e : ModelFault) : (s.addFault e).done = s.done := rfl
@[simp] theorem State.addFault_underrun (e : ModelFault) : (s.addFault e).underrun = s.underrun := rfl
@[simp] theorem State.addFault_result (e : ModelFault) : (s.addFault e).result = s.result := rfl
@[simp] theorem State.addFault_dacOut0 (e : ModelFault) : (s.addFault e).dacOut0 = s.dacOut0 := rfl
@[simp] theorem State.addFault_dacOut1 (e : ModelFault) : (s.addFault e).dacOut1 = s.dacOut1 := rfl
@[simp] theorem State.addFault_faults (e : ModelFault) : (s.addFault e).faults = s.faults.add e := rfl
@[simp] theorem State.addFault_trace (e : ModelFault) : (s.addFault e).trace = s.trace := rfl
@[simp] theorem State.addFault_toOutside (e : ModelFault) : (s.addFault e).toOutside = s.toOutside := rfl

/-! ok -/

@[simp] theorem State.ok_cfg (opc : Byte) (b : Bool) : (s.ok opc b).cfg = s.cfg := rfl
@[simp] theorem State.ok_running (opc : Byte) (b : Bool) : (s.ok opc b).running = s.running := rfl
@[simp] theorem State.ok_channel (opc : Byte) (b : Bool) : (s.ok opc b).channel = s.channel := rfl
@[simp] theorem State.ok_seqState (opc : Byte) (b : Bool) : (s.ok opc b).seqState = s.seqState := rfl
@[simp] theorem State.ok_stepIndex (opc : Byte) (b : Bool) : (s.ok opc b).stepIndex = s.stepIndex := rfl
@[simp] theorem State.ok_remain (opc : Byte) (b : Bool) : (s.ok opc b).remain = s.remain := rfl
@[simp] theorem State.ok_phase (opc : Byte) (b : Bool) : (s.ok opc b).phase = s.phase := rfl
@[simp] theorem State.ok_seqCount (opc : Byte) (b : Bool) : (s.ok opc b).seqCount = s.seqCount := rfl
@[simp] theorem State.ok_seq (opc : Byte) (b : Bool) : (s.ok opc b).seq = s.seq := rfl
@[simp] theorem State.ok_stage (opc : Byte) (b : Bool) : (s.ok opc b).stage = s.stage := rfl
@[simp] theorem State.ok_mem (opc : Byte) (b : Bool) : (s.ok opc b).mem = s.mem := rfl
@[simp] theorem State.ok_dmaPos (opc : Byte) (b : Bool) : (s.ok opc b).dmaPos = s.dmaPos := rfl
@[simp] theorem State.ok_pending (opc : Byte) (b : Bool) : (s.ok opc b).pending = s.pending := rfl
@[simp] theorem State.ok_lastHalf (opc : Byte) (b : Bool) : (s.ok opc b).lastHalf = s.lastHalf := rfl
@[simp] theorem State.ok_initDone (opc : Byte) (b : Bool) : (s.ok opc b).initDone = s.initDone := rfl
@[simp] theorem State.ok_done (opc : Byte) (b : Bool) : (s.ok opc b).done = s.done := rfl
@[simp] theorem State.ok_underrun (opc : Byte) (b : Bool) : (s.ok opc b).underrun = s.underrun := rfl
@[simp] theorem State.ok_result (opc : Byte) (b : Bool) : (s.ok opc b).result = okWord opc b := rfl
@[simp] theorem State.ok_dacOut0 (opc : Byte) (b : Bool) : (s.ok opc b).dacOut0 = s.dacOut0 := rfl
@[simp] theorem State.ok_dacOut1 (opc : Byte) (b : Bool) : (s.ok opc b).dacOut1 = s.dacOut1 := rfl
@[simp] theorem State.ok_faults (opc : Byte) (b : Bool) : (s.ok opc b).faults = s.faults := rfl
@[simp] theorem State.ok_trace (opc : Byte) (b : Bool) : (s.ok opc b).trace = s.trace := rfl
@[simp] theorem State.ok_toOutside (opc : Byte) (b : Bool) : (s.ok opc b).toOutside = s.toOutside := rfl

/-! raise -/

@[simp] theorem State.raise_cfg (opc : Byte) (e : CommandError) : (s.raise opc e).cfg = s.cfg := rfl
@[simp] theorem State.raise_running (opc : Byte) (e : CommandError) : (s.raise opc e).running = s.running := rfl
@[simp] theorem State.raise_channel (opc : Byte) (e : CommandError) : (s.raise opc e).channel = s.channel := rfl
@[simp] theorem State.raise_seqState (opc : Byte) (e : CommandError) : (s.raise opc e).seqState = s.seqState := rfl
@[simp] theorem State.raise_stepIndex (opc : Byte) (e : CommandError) : (s.raise opc e).stepIndex = s.stepIndex := rfl
@[simp] theorem State.raise_remain (opc : Byte) (e : CommandError) : (s.raise opc e).remain = s.remain := rfl
@[simp] theorem State.raise_phase (opc : Byte) (e : CommandError) : (s.raise opc e).phase = s.phase := rfl
@[simp] theorem State.raise_seqCount (opc : Byte) (e : CommandError) : (s.raise opc e).seqCount = s.seqCount := rfl
@[simp] theorem State.raise_seq (opc : Byte) (e : CommandError) : (s.raise opc e).seq = s.seq := rfl
@[simp] theorem State.raise_stage (opc : Byte) (e : CommandError) : (s.raise opc e).stage = s.stage := rfl
@[simp] theorem State.raise_mem (opc : Byte) (e : CommandError) : (s.raise opc e).mem = s.mem := rfl
@[simp] theorem State.raise_dmaPos (opc : Byte) (e : CommandError) : (s.raise opc e).dmaPos = s.dmaPos := rfl
@[simp] theorem State.raise_pending (opc : Byte) (e : CommandError) : (s.raise opc e).pending = s.pending := rfl
@[simp] theorem State.raise_lastHalf (opc : Byte) (e : CommandError) : (s.raise opc e).lastHalf = s.lastHalf := rfl
@[simp] theorem State.raise_initDone (opc : Byte) (e : CommandError) : (s.raise opc e).initDone = s.initDone := rfl
@[simp] theorem State.raise_done (opc : Byte) (e : CommandError) : (s.raise opc e).done = s.done := rfl
@[simp] theorem State.raise_underrun (opc : Byte) (e : CommandError) : (s.raise opc e).underrun = s.underrun := rfl
@[simp] theorem State.raise_result (opc : Byte) (e : CommandError) : (s.raise opc e).result = errWord opc e := rfl
@[simp] theorem State.raise_dacOut0 (opc : Byte) (e : CommandError) : (s.raise opc e).dacOut0 = s.dacOut0 := rfl
@[simp] theorem State.raise_dacOut1 (opc : Byte) (e : CommandError) : (s.raise opc e).dacOut1 = s.dacOut1 := rfl
@[simp] theorem State.raise_faults (opc : Byte) (e : CommandError) : (s.raise opc e).faults = s.faults := rfl
@[simp] theorem State.raise_trace (opc : Byte) (e : CommandError) : (s.raise opc e).trace = s.trace := rfl
@[simp] theorem State.raise_toOutside (opc : Byte) (e : CommandError) : (s.raise opc e).toOutside = s.toOutside := rfl

/-! afterDraw -/

@[simp] theorem State.afterDraw_cfg (r : CollabRequest) : (s.afterDraw r).cfg = s.cfg := rfl
@[simp] theorem State.afterDraw_running (r : CollabRequest) : (s.afterDraw r).running = s.running := rfl
@[simp] theorem State.afterDraw_channel (r : CollabRequest) : (s.afterDraw r).channel = s.channel := rfl
@[simp] theorem State.afterDraw_seqState (r : CollabRequest) : (s.afterDraw r).seqState = s.seqState := rfl
@[simp] theorem State.afterDraw_stepIndex (r : CollabRequest) : (s.afterDraw r).stepIndex = s.stepIndex := rfl
@[simp] theorem State.afterDraw_remain (r : CollabRequest) : (s.afterDraw r).remain = s.remain := rfl
@[simp] theorem State.afterDraw_phase (r : CollabRequest) : (s.afterDraw r).phase = s.phase := rfl
@[simp] theorem State.afterDraw_seqCount (r : CollabRequest) : (s.afterDraw r).seqCount = s.seqCount := rfl
@[simp] theorem State.afterDraw_seq (r : CollabRequest) : (s.afterDraw r).seq = s.seq := rfl
@[simp] theorem State.afterDraw_stage (r : CollabRequest) : (s.afterDraw r).stage = s.stage := rfl
@[simp] theorem State.afterDraw_mem (r : CollabRequest) : (s.afterDraw r).mem = s.mem := rfl
@[simp] theorem State.afterDraw_dmaPos (r : CollabRequest) : (s.afterDraw r).dmaPos = s.dmaPos := rfl
@[simp] theorem State.afterDraw_pending (r : CollabRequest) : (s.afterDraw r).pending = s.pending := rfl
@[simp] theorem State.afterDraw_lastHalf (r : CollabRequest) : (s.afterDraw r).lastHalf = s.lastHalf := rfl
@[simp] theorem State.afterDraw_initDone (r : CollabRequest) : (s.afterDraw r).initDone = s.initDone := rfl
@[simp] theorem State.afterDraw_done (r : CollabRequest) : (s.afterDraw r).done = s.done := rfl
@[simp] theorem State.afterDraw_underrun (r : CollabRequest) : (s.afterDraw r).underrun = s.underrun := rfl
@[simp] theorem State.afterDraw_result (r : CollabRequest) : (s.afterDraw r).result = s.result := rfl
@[simp] theorem State.afterDraw_dacOut0 (r : CollabRequest) : (s.afterDraw r).dacOut0 = s.dacOut0 := rfl
@[simp] theorem State.afterDraw_dacOut1 (r : CollabRequest) : (s.afterDraw r).dacOut1 = s.dacOut1 := rfl
@[simp] theorem State.afterDraw_faults (r : CollabRequest) : (s.afterDraw r).faults = s.faults := rfl
@[simp] theorem State.afterDraw_trace (r : CollabRequest) : (s.afterDraw r).trace = s.trace := rfl
@[simp] theorem State.afterDraw_schedule (r : CollabRequest) : (s.afterDraw r).schedule = s.schedule := rfl
@[simp] theorem State.afterDraw_fixed (r : CollabRequest) : (s.afterDraw r).fixed = s.fixed.put r none := rfl
@[simp] theorem State.afterDraw_drawCount (r : CollabRequest) : (s.afterDraw r).drawCount = s.drawCount + 1 := rfl
@[simp] theorem State.afterDraw_epoch (r : CollabRequest) : (s.afterDraw r).epoch = s.epoch := rfl
@[simp] theorem State.afterDraw_readData (r : CollabRequest) : (s.afterDraw r).readData = s.readData := rfl

/-! fixOutcome -/

@[simp] theorem State.fixOutcome_cfg (r : CollabRequest) (b : Bool) : (s.fixOutcome r b).cfg = s.cfg := rfl
@[simp] theorem State.fixOutcome_running (r : CollabRequest) (b : Bool) : (s.fixOutcome r b).running = s.running := rfl
@[simp] theorem State.fixOutcome_channel (r : CollabRequest) (b : Bool) : (s.fixOutcome r b).channel = s.channel := rfl
@[simp] theorem State.fixOutcome_seqState (r : CollabRequest) (b : Bool) : (s.fixOutcome r b).seqState = s.seqState := rfl
@[simp] theorem State.fixOutcome_stepIndex (r : CollabRequest) (b : Bool) : (s.fixOutcome r b).stepIndex = s.stepIndex := rfl
@[simp] theorem State.fixOutcome_remain (r : CollabRequest) (b : Bool) : (s.fixOutcome r b).remain = s.remain := rfl
@[simp] theorem State.fixOutcome_phase (r : CollabRequest) (b : Bool) : (s.fixOutcome r b).phase = s.phase := rfl
@[simp] theorem State.fixOutcome_seqCount (r : CollabRequest) (b : Bool) : (s.fixOutcome r b).seqCount = s.seqCount := rfl
@[simp] theorem State.fixOutcome_seq (r : CollabRequest) (b : Bool) : (s.fixOutcome r b).seq = s.seq := rfl
@[simp] theorem State.fixOutcome_stage (r : CollabRequest) (b : Bool) : (s.fixOutcome r b).stage = s.stage := rfl
@[simp] theorem State.fixOutcome_mem (r : CollabRequest) (b : Bool) : (s.fixOutcome r b).mem = s.mem := rfl
@[simp] theorem State.fixOutcome_dmaPos (r : CollabRequest) (b : Bool) : (s.fixOutcome r b).dmaPos = s.dmaPos := rfl
@[simp] theorem State.fixOutcome_pending (r : CollabRequest) (b : Bool) : (s.fixOutcome r b).pending = s.pending := rfl
@[simp] theorem State.fixOutcome_lastHalf (r : CollabRequest) (b : Bool) : (s.fixOutcome r b).lastHalf = s.lastHalf := rfl
@[simp] theorem State.fixOutcome_initDone (r : CollabRequest) (b : Bool) : (s.fixOutcome r b).initDone = s.initDone := rfl
@[simp] theorem State.fixOutcome_done (r : CollabRequest) (b : Bool) : (s.fixOutcome r b).done = s.done := rfl
@[simp] theorem State.fixOutcome_underrun (r : CollabRequest) (b : Bool) : (s.fixOutcome r b).underrun = s.underrun := rfl
@[simp] theorem State.fixOutcome_result (r : CollabRequest) (b : Bool) : (s.fixOutcome r b).result = s.result := rfl
@[simp] theorem State.fixOutcome_dacOut0 (r : CollabRequest) (b : Bool) : (s.fixOutcome r b).dacOut0 = s.dacOut0 := rfl
@[simp] theorem State.fixOutcome_dacOut1 (r : CollabRequest) (b : Bool) : (s.fixOutcome r b).dacOut1 = s.dacOut1 := rfl
@[simp] theorem State.fixOutcome_faults (r : CollabRequest) (b : Bool) : (s.fixOutcome r b).faults = s.faults := rfl
@[simp] theorem State.fixOutcome_trace (r : CollabRequest) (b : Bool) : (s.fixOutcome r b).trace = s.trace := rfl
@[simp] theorem State.fixOutcome_schedule (r : CollabRequest) (b : Bool) : (s.fixOutcome r b).schedule = s.schedule := rfl
@[simp] theorem State.fixOutcome_fixed (r : CollabRequest) (b : Bool) : (s.fixOutcome r b).fixed = s.fixed.put r (some b) := rfl
@[simp] theorem State.fixOutcome_drawCount (r : CollabRequest) (b : Bool) : (s.fixOutcome r b).drawCount = s.drawCount := rfl
@[simp] theorem State.fixOutcome_epoch (r : CollabRequest) (b : Bool) : (s.fixOutcome r b).epoch = s.epoch := rfl
@[simp] theorem State.fixOutcome_readData (r : CollabRequest) (b : Bool) : (s.fixOutcome r b).readData = s.readData := rfl

/-! raiseEvent -/

@[simp] theorem State.raiseEvent_cfg (e : DmaEvent) : (s.raiseEvent e).cfg = s.cfg := by unfold State.raiseEvent; split <;> rfl
@[simp] theorem State.raiseEvent_running (e : DmaEvent) : (s.raiseEvent e).running = s.running := by unfold State.raiseEvent; split <;> rfl
@[simp] theorem State.raiseEvent_channel (e : DmaEvent) : (s.raiseEvent e).channel = s.channel := by unfold State.raiseEvent; split <;> rfl
@[simp] theorem State.raiseEvent_seqState (e : DmaEvent) : (s.raiseEvent e).seqState = s.seqState := by unfold State.raiseEvent; split <;> rfl
@[simp] theorem State.raiseEvent_stepIndex (e : DmaEvent) : (s.raiseEvent e).stepIndex = s.stepIndex := by unfold State.raiseEvent; split <;> rfl
@[simp] theorem State.raiseEvent_remain (e : DmaEvent) : (s.raiseEvent e).remain = s.remain := by unfold State.raiseEvent; split <;> rfl
@[simp] theorem State.raiseEvent_phase (e : DmaEvent) : (s.raiseEvent e).phase = s.phase := by unfold State.raiseEvent; split <;> rfl
@[simp] theorem State.raiseEvent_seqCount (e : DmaEvent) : (s.raiseEvent e).seqCount = s.seqCount := by unfold State.raiseEvent; split <;> rfl
@[simp] theorem State.raiseEvent_seq (e : DmaEvent) : (s.raiseEvent e).seq = s.seq := by unfold State.raiseEvent; split <;> rfl
@[simp] theorem State.raiseEvent_stage (e : DmaEvent) : (s.raiseEvent e).stage = s.stage := by unfold State.raiseEvent; split <;> rfl
@[simp] theorem State.raiseEvent_mem (e : DmaEvent) : (s.raiseEvent e).mem = s.mem := by unfold State.raiseEvent; split <;> rfl
@[simp] theorem State.raiseEvent_dmaPos (e : DmaEvent) : (s.raiseEvent e).dmaPos = s.dmaPos := by unfold State.raiseEvent; split <;> rfl
@[simp] theorem State.raiseEvent_pending (e : DmaEvent) : (s.raiseEvent e).pending = if s.pending.contains e then s.pending else s.pending ++ [e] := by unfold State.raiseEvent; split <;> rfl
@[simp] theorem State.raiseEvent_lastHalf (e : DmaEvent) : (s.raiseEvent e).lastHalf = s.lastHalf := by unfold State.raiseEvent; split <;> rfl
@[simp] theorem State.raiseEvent_initDone (e : DmaEvent) : (s.raiseEvent e).initDone = s.initDone := by unfold State.raiseEvent; split <;> rfl
@[simp] theorem State.raiseEvent_done (e : DmaEvent) : (s.raiseEvent e).done = s.done := by unfold State.raiseEvent; split <;> rfl
@[simp] theorem State.raiseEvent_underrun (e : DmaEvent) : (s.raiseEvent e).underrun = s.underrun := by unfold State.raiseEvent; split <;> rfl
@[simp] theorem State.raiseEvent_result (e : DmaEvent) : (s.raiseEvent e).result = s.result := by unfold State.raiseEvent; split <;> rfl
@[simp] theorem State.raiseEvent_dacOut0 (e : DmaEvent) : (s.raiseEvent e).dacOut0 = s.dacOut0 := by unfold State.raiseEvent; split <;> rfl
@[simp] theorem State.raiseEvent_dacOut1 (e : DmaEvent) : (s.raiseEvent e).dacOut1 = s.dacOut1 := by unfold State.raiseEvent; split <;> rfl
@[simp] theorem State.raiseEvent_faults (e : DmaEvent) : (s.raiseEvent e).faults = s.faults := by unfold State.raiseEvent; split <;> rfl
@[simp] theorem State.raiseEvent_trace (e : DmaEvent) : (s.raiseEvent e).trace = s.trace := by unfold State.raiseEvent; split <;> rfl
@[simp] theorem State.raiseEvent_toOutside (e : DmaEvent) : (s.raiseEvent e).toOutside = s.toOutside := by unfold State.raiseEvent; split <;> rfl

/-! takeEvent -/

@[simp] theorem State.takeEvent_cfg : (s.takeEvent).cfg = s.cfg := rfl
@[simp] theorem State.takeEvent_running : (s.takeEvent).running = s.running := rfl
@[simp] theorem State.takeEvent_channel : (s.takeEvent).channel = s.channel := rfl
@[simp] theorem State.takeEvent_seqState : (s.takeEvent).seqState = s.seqState := rfl
@[simp] theorem State.takeEvent_stepIndex : (s.takeEvent).stepIndex = s.stepIndex := rfl
@[simp] theorem State.takeEvent_remain : (s.takeEvent).remain = s.remain := rfl
@[simp] theorem State.takeEvent_phase : (s.takeEvent).phase = s.phase := rfl
@[simp] theorem State.takeEvent_seqCount : (s.takeEvent).seqCount = s.seqCount := rfl
@[simp] theorem State.takeEvent_seq : (s.takeEvent).seq = s.seq := rfl
@[simp] theorem State.takeEvent_stage : (s.takeEvent).stage = s.stage := rfl
@[simp] theorem State.takeEvent_mem : (s.takeEvent).mem = s.mem := rfl
@[simp] theorem State.takeEvent_dmaPos : (s.takeEvent).dmaPos = s.dmaPos := rfl
@[simp] theorem State.takeEvent_pending : (s.takeEvent).pending = s.pending.tail := rfl
@[simp] theorem State.takeEvent_lastHalf : (s.takeEvent).lastHalf = s.lastHalf := rfl
@[simp] theorem State.takeEvent_initDone : (s.takeEvent).initDone = s.initDone := rfl
@[simp] theorem State.takeEvent_done : (s.takeEvent).done = s.done := rfl
@[simp] theorem State.takeEvent_underrun : (s.takeEvent).underrun = s.underrun := rfl
@[simp] theorem State.takeEvent_result : (s.takeEvent).result = s.result := rfl
@[simp] theorem State.takeEvent_dacOut0 : (s.takeEvent).dacOut0 = s.dacOut0 := rfl
@[simp] theorem State.takeEvent_dacOut1 : (s.takeEvent).dacOut1 = s.dacOut1 := rfl
@[simp] theorem State.takeEvent_faults : (s.takeEvent).faults = s.faults := rfl
@[simp] theorem State.takeEvent_trace : (s.takeEvent).trace = s.trace := rfl
@[simp] theorem State.takeEvent_toOutside : (s.takeEvent).toOutside = s.toOutside := rfl

/-! stopEffects -/

@[simp] theorem State.stopEffects_cfg : (s.stopEffects).cfg = s.cfg := rfl
@[simp] theorem State.stopEffects_running : (s.stopEffects).running = false := rfl
@[simp] theorem State.stopEffects_channel : (s.stopEffects).channel = s.channel := rfl
@[simp] theorem State.stopEffects_seqState : (s.stopEffects).seqState = if s.seqCount = 0#8 then .notConfigured else .configured := rfl
@[simp] theorem State.stopEffects_stepIndex : (s.stopEffects).stepIndex = 0#8 := rfl
@[simp] theorem State.stopEffects_remain : (s.stopEffects).remain = 0#64 := rfl
@[simp] theorem State.stopEffects_phase : (s.stopEffects).phase = 0#32 := rfl
@[simp] theorem State.stopEffects_seqCount : (s.stopEffects).seqCount = s.seqCount := rfl
@[simp] theorem State.stopEffects_seq : (s.stopEffects).seq = s.seq := rfl
@[simp] theorem State.stopEffects_stage : (s.stopEffects).stage = s.stage := rfl
@[simp] theorem State.stopEffects_mem : (s.stopEffects).mem = s.mem := rfl
@[simp] theorem State.stopEffects_dmaPos : (s.stopEffects).dmaPos = 0#16 := rfl
@[simp] theorem State.stopEffects_pending : (s.stopEffects).pending = [] := rfl
@[simp] theorem State.stopEffects_lastHalf : (s.stopEffects).lastHalf = none := rfl
@[simp] theorem State.stopEffects_initDone : (s.stopEffects).initDone = s.initDone := rfl
@[simp] theorem State.stopEffects_done : (s.stopEffects).done = s.done := rfl
@[simp] theorem State.stopEffects_underrun : (s.stopEffects).underrun = s.underrun := rfl
@[simp] theorem State.stopEffects_result : (s.stopEffects).result = s.result := rfl
@[simp] theorem State.stopEffects_dacOut0 : (s.stopEffects).dacOut0 = s.dacOut0 := rfl
@[simp] theorem State.stopEffects_dacOut1 : (s.stopEffects).dacOut1 = s.dacOut1 := rfl
@[simp] theorem State.stopEffects_faults : (s.stopEffects).faults = s.faults := rfl
@[simp] theorem State.stopEffects_trace : (s.stopEffects).trace = s.trace := rfl
@[simp] theorem State.stopEffects_toOutside : (s.stopEffects).toOutside = s.toOutside := rfl

/-! The channel's own register, and reading it back. -/

@[simp] theorem State.emit_dacOut_same (ch : Channel) (v : Sample) : (s.emit ch v).dacOut ch = v := by cases ch <;> rfl

theorem State.emit_dacOut_other (ch ch' : Channel) (v : Sample) (h : ch' ≠ ch) : (s.emit ch v).dacOut ch' = s.dacOut ch' := by
  cases ch <;> cases ch' <;> first | rfl | exact absurd rfl h

/-! A byte of `BUF` depends on the memory and the epoch alone. -/

theorem State.byteAt_congr (s t : State) (hm : t.mem = s.mem) (he : t.epoch = s.epoch) (a : Nat) :
    t.byteAt a = s.byteAt a := by
  simp [State.byteAt, hm, he]

theorem State.bufAt_congr (s t : State) (hm : t.mem = s.mem) (he : t.epoch = s.epoch) (j : Nat) : t.bufAt j = s.bufAt j := by
  simp [State.bufAt, State.byteAt_congr s t hm he]

/-! Model faults: a set grows, and holds what was added. -/

@[simp] theorem FaultSet.has_add_self (f : FaultSet) (e : ModelFault) : (f.add e).has e = true := by cases e <;> rfl

/-! initial (70_reset_and_hazards.md R341) -/

@[simp] theorem State.initial_cfg (c : Config) (n : Nat) : (State.initial c n).cfg = c := rfl
@[simp] theorem State.initial_running (c : Config) (n : Nat) : (State.initial c n).running = false := rfl
@[simp] theorem State.initial_channel (c : Config) (n : Nat) : (State.initial c n).channel = .ch0 := rfl
@[simp] theorem State.initial_seqState (c : Config) (n : Nat) : (State.initial c n).seqState = .notConfigured := rfl
@[simp] theorem State.initial_stepIndex (c : Config) (n : Nat) : (State.initial c n).stepIndex = 0#8 := rfl
@[simp] theorem State.initial_remain (c : Config) (n : Nat) : (State.initial c n).remain = 0#64 := rfl
@[simp] theorem State.initial_phase (c : Config) (n : Nat) : (State.initial c n).phase = 0#32 := rfl
@[simp] theorem State.initial_seqCount (c : Config) (n : Nat) : (State.initial c n).seqCount = 0#8 := rfl
@[simp] theorem State.initial_seq (c : Config) (n : Nat) : (State.initial c n).seq = List.replicate c.maxSteps StepRec.zero := rfl
@[simp] theorem State.initial_stage (c : Config) (n : Nat) : (State.initial c n).stage = List.replicate c.maxSteps StageSlot.zero := rfl
@[simp] theorem State.initial_mem (c : Config) (n : Nat) : (State.initial c n).mem = [] := rfl
@[simp] theorem State.initial_dmaPos (c : Config) (n : Nat) : (State.initial c n).dmaPos = 0#16 := rfl
@[simp] theorem State.initial_pending (c : Config) (n : Nat) : (State.initial c n).pending = [] := rfl
@[simp] theorem State.initial_lastHalf (c : Config) (n : Nat) : (State.initial c n).lastHalf = none := rfl
@[simp] theorem State.initial_initDone (c : Config) (n : Nat) : (State.initial c n).initDone = false := rfl
@[simp] theorem State.initial_done (c : Config) (n : Nat) : (State.initial c n).done = false := rfl
@[simp] theorem State.initial_underrun (c : Config) (n : Nat) : (State.initial c n).underrun = false := rfl
@[simp] theorem State.initial_result (c : Config) (n : Nat) : (State.initial c n).result = 0#32 := rfl
@[simp] theorem State.initial_dacOut0 (c : Config) (n : Nat) : (State.initial c n).dacOut0 = BitVec.ofNat 16 ((Config.powerOnDac n .ch0).toNat % 2 ^ c.dacBits) := rfl
@[simp] theorem State.initial_dacOut1 (c : Config) (n : Nat) : (State.initial c n).dacOut1 = BitVec.ofNat 16 ((Config.powerOnDac n .ch1).toNat % 2 ^ c.dacBits) := rfl
@[simp] theorem State.initial_faults (c : Config) (n : Nat) : (State.initial c n).faults = FaultSet.empty := rfl
@[simp] theorem State.initial_trace (c : Config) (n : Nat) : (State.initial c n).trace = [] := rfl
@[simp] theorem State.initial_schedule (c : Config) (n : Nat) : (State.initial c n).schedule = [] := rfl
@[simp] theorem State.initial_fixed (c : Config) (n : Nat) : (State.initial c n).fixed = ⟨none, none, none⟩ := rfl
@[simp] theorem State.initial_drawCount (c : Config) (n : Nat) : (State.initial c n).drawCount = 0 := rfl
@[simp] theorem State.initial_epoch (c : Config) (n : Nat) : (State.initial c n).epoch = n := rfl
@[simp] theorem State.initial_readData (c : Config) (n : Nat) : (State.initial c n).readData = 0#32 := rfl

/-! powerOnReset: the block as after reset, with the next epoch; what stands outside stays (70_reset_and_hazards.md R340). -/

theorem State.powerOnReset_eq : s.powerOnReset = { State.initial s.cfg (s.epoch + 1) with
    schedule := s.schedule, fixed := s.fixed, drawCount := s.drawCount, readData := s.readData } := rfl

@[simp] theorem State.powerOnReset_running : s.powerOnReset.running = false := rfl
@[simp] theorem State.powerOnReset_mem : s.powerOnReset.mem = [] := rfl
@[simp] theorem State.powerOnReset_trace : s.powerOnReset.trace = [] := rfl
@[simp] theorem State.powerOnReset_cfg : s.powerOnReset.cfg = s.cfg := rfl
@[simp] theorem State.powerOnReset_epoch : s.powerOnReset.epoch = s.epoch + 1 := rfl

theorem FaultSet.has_add_mono (f : FaultSet) (e e' : ModelFault) (h : f.has e' = true) : (f.add e).has e' = true := by
  cases e <;> cases e' <;> first | rfl | exact h

end Sys2Proof.Machine
end

