-- ==== Sys2Proof/Laws/Memory.lean ====
section
/-! SUPPORT. The laws of memory: reading after storing, and the canonical form that every store keeps. -/

namespace Sys2Proof.Machine

/-! Consecutive cells. -/

theorem cellsFrom_get?_below (base : Nat) (bytes : List Byte) (a : Nat) (h : a < base) :
    (cellsFrom base bytes).get? a = none := by
  induction bytes generalizing base with
  | nil => rfl
  | cons b bs ih => simp [cellsFrom, Memory.get?, show base ≠ a by omega, ih (base + 1) (by omega)]

/-- Inside the stored range, the byte stored there; past it, none. -/
theorem cellsFrom_get? (base : Nat) (bytes : List Byte) (k : Nat) : (cellsFrom base bytes).get? (base + k) = bytes[k]? := by
  induction bytes generalizing base k with
  | nil => simp [cellsFrom, Memory.get?]
  | cons b bs ih =>
    cases k with
    | zero => simp [cellsFrom, Memory.get?]
    | succ k =>
      have := ih (base + 1) k
      simp [cellsFrom, Memory.get?, ← this, show base + 1 + k = base + (k + 1) by omega]

theorem cellsFrom_keys (base : Nat) (bytes : List Byte) (x : Host.Cell) (h : x ∈ cellsFrom base bytes) :
    base ≤ x.1 ∧ x.1 < base + bytes.length := by
  induction bytes generalizing base with
  | nil => simp [cellsFrom] at h
  | cons b bs ih =>
    simp only [cellsFrom, List.mem_cons] at h
    rcases h with rfl | h
    · simp
    · have := ih (base + 1) h
      simp only [List.length_cons]
      omega

theorem cellsFrom_wf (base : Nat) (bytes : List Byte) : Memory.wf (cellsFrom base bytes) := by
  induction bytes generalizing base with
  | nil => exact List.Pairwise.nil
  | cons b bs ih =>
    refine List.Pairwise.cons ?_ (ih (base + 1))
    intro x hx
    have := (cellsFrom_keys (base + 1) bs x hx).1
    omega

/-! Reading. -/

theorem Memory.get?_append (m n : Memory) (a : Nat) : (m ++ n : Memory).get? a = (m.get? a).or (n.get? a) := by
  induction m with
  | nil => rfl
  | cons x xs ih =>
    obtain ⟨b, v⟩ := x
    by_cases h : b = a
    · simp [Memory.get?, h]
    · simpa [Memory.get?, h] using ih

theorem Memory.get?_filter_pos (m : Memory) (p : Nat → Bool) (a : Nat) (h : p a = true) :
    Memory.get? (m.filter fun x : Host.Cell => p x.1) a = m.get? a := by
  induction m with
  | nil => rfl
  | cons x xs ih =>
    obtain ⟨b, v⟩ := x
    by_cases hb : b = a
    · subst hb
      simp [h, Memory.get?]
    · by_cases hp : p b <;> simp [hp, Memory.get?, hb, ih]

theorem Memory.get?_filter_neg (m : Memory) (p : Nat → Bool) (a : Nat) (h : p a = false) :
    Memory.get? (m.filter fun x : Host.Cell => p x.1) a = none := by
  induction m with
  | nil => rfl
  | cons x xs ih =>
    obtain ⟨b, v⟩ := x
    by_cases hp : p b
    · have hb : b ≠ a := fun e => by simp [e, h] at hp
      simp [hp, Memory.get?, hb, ih]
    · simp [hp, ih]

/-- What every offset holds after a store: the stored byte inside the stored range, what it held outside. -/
theorem Memory.get?_store (m : Memory) (base : Nat) (bytes : List Byte) (a : Nat) :
    (m.store base bytes).get? a = if base ≤ a ∧ a < base + bytes.length then bytes[a - base]? else m.get? a := by
  have eL := Memory.get?_filter_pos m (fun y => decide (y < base)) a
  have eL' := Memory.get?_filter_neg m (fun y => decide (y < base)) a
  have eR := Memory.get?_filter_pos m (fun y => decide (base + bytes.length ≤ y)) a
  have eR' := Memory.get?_filter_neg m (fun y => decide (base + bytes.length ≤ y)) a
  rw [Memory.store, Memory.get?_append, Memory.get?_append]
  by_cases h1 : a < base
  · rw [eL (by simpa using h1), cellsFrom_get?_below _ _ _ h1, eR' (by simp; omega), if_neg (by omega)]
    simp
  · have hk := cellsFrom_get? base bytes (a - base)
    rw [show base + (a - base) = a by omega] at hk
    rw [eL' (by simpa using h1), hk]
    by_cases h2 : a < base + bytes.length
    · rw [eR' (by simp; omega), if_pos ⟨by omega, h2⟩]
      simp
    · rw [eR (by simp; omega), if_neg (by omega), List.getElem?_eq_none (by omega)]
      simp

/-! The canonical form. -/

/-- A store keeps the canonical form. -/
theorem Memory.wf_store (m : Memory) (base : Nat) (bytes : List Byte) (h : Memory.wf m) : Memory.wf (m.store base bytes) := by
  refine List.pairwise_append.2 ⟨List.pairwise_append.2 ⟨h.filter _, cellsFrom_wf base bytes, ?_⟩, h.filter _, ?_⟩
  · intro x hx y hy
    have h1 := (List.mem_filter.1 hx).2
    have h2 := cellsFrom_keys base bytes y hy
    simp only [decide_eq_true_eq] at h1
    omega
  · intro x hx y hy
    have h2 := (List.mem_filter.1 hy).2
    simp only [decide_eq_true_eq] at h2
    rcases List.mem_append.1 hx with hx | hx
    · have h1 := (List.mem_filter.1 hx).2
      simp only [decide_eq_true_eq] at h1
      omega
    · have h1 := cellsFrom_keys base bytes x hx
      omega

/-- The offsets listed after a store: those listed before, and those of the stored range. -/
theorem Memory.mem_store (m : Memory) (base : Nat) (bytes : List Byte) (x : Host.Cell) (h : x ∈ m.store base bytes) :
    x ∈ m ∨ base ≤ x.1 ∧ x.1 < base + bytes.length := by
  simp only [Memory.store, List.mem_append] at h
  rcases h with (h | h) | h
  · exact .inl (List.mem_filter.1 h).1
  · exact .inr (cellsFrom_keys base bytes x h)
  · exact .inl (List.mem_filter.1 h).1

/-- Reset memory is in canonical form. -/
theorem State.reset_mem_wf : Memory.wf State.reset.mem := List.Pairwise.nil

/-! Elements of `BUF`. -/

@[simp] theorem flatMap_sampleBytes_length (codes : List Sample) : (codes.flatMap sampleBytes).length = 2 * codes.length := by
  induction codes with
  | nil => rfl
  | cons c cs ih => simp [sampleBytes, ih]; omega

theorem flatMap_sampleBytes_low (codes : List Sample) (i : Nat) :
    (codes.flatMap sampleBytes)[2 * i]? = codes[i]?.map (fun v => v.extractLsb' 0 8) := by
  induction codes generalizing i with
  | nil => simp
  | cons c cs ih =>
    cases i with
    | zero => simp [sampleBytes]
    | succ i =>
      rw [show 2 * (i + 1) = 2 * i + 1 + 1 by omega]
      simpa [sampleBytes] using ih i

theorem flatMap_sampleBytes_high (codes : List Sample) (i : Nat) :
    (codes.flatMap sampleBytes)[2 * i + 1]? = codes[i]?.map (fun v => v.extractLsb' 8 8) := by
  induction codes generalizing i with
  | nil => simp
  | cons c cs ih =>
    cases i with
    | zero => simp [sampleBytes]
    | succ i =>
      rw [show 2 * (i + 1) + 1 = 2 * i + 1 + 1 + 1 by omega]
      simpa [sampleBytes] using ih i

/-- A byte outside the stored elements reads as before. -/
theorem State.byteAt_storeSamples_outside (s : State) (first : Nat) (codes : List Sample) (a : Nat)
    (h : a < bufAddr first ∨ bufAddr first + 2 * codes.length ≤ a) : (s.storeSamples first codes).byteAt a = s.byteAt a := by
  simp only [State.byteAt, State.storeSamples_mem, State.storeSamples_epoch, Memory.get?_store, flatMap_sampleBytes_length]
  rw [if_neg (by omega)]

theorem sample_of_bytes (v : Sample) : (v.extractLsb' 8 8 ++ v.extractLsb' 0 8 : BitVec (8 + 8)) = v := by
  ext i hi
  simp only [BitVec.getElem_append, BitVec.getElem_extractLsb']
  split
  · simp [BitVec.getLsbD_eq_getElem (show i < 16 by omega)]
  · rw [show 8 + (i - 8) = i by omega]
    simp [BitVec.getLsbD_eq_getElem (show i < 16 by omega)]

/-- An element inside the stored range reads as stored. -/
theorem State.bufAt_storeSamples_inside (s : State) (first : Nat) (codes : List Sample) (i : Nat) (v : Sample)
    (h : codes[i]? = some v) : (s.storeSamples first codes).bufAt (first + i) = v := by
  have hi : i < codes.length := by
    by_contra hc
    rw [List.getElem?_eq_none (by omega)] at h
    exact absurd h (by simp)
  have hl := flatMap_sampleBytes_low codes i
  have hh := flatMap_sampleBytes_high codes i
  rw [h] at hl hh
  have e0 : bufAddr (first + i) - bufAddr first = 2 * i := by simp [bufAddr]; omega
  have e1 : bufAddr (first + i) + 1 - bufAddr first = 2 * i + 1 := by simp [bufAddr]; omega
  simp only [State.bufAt, State.byteAt, State.storeSamples_mem, State.storeSamples_epoch, Memory.get?_store,
    flatMap_sampleBytes_length]
  rw [if_pos (by simp [bufAddr]; omega), if_pos (by simp [bufAddr]; omega), e0, e1, hl, hh]
  exact sample_of_bytes v

/-- An element outside the stored range reads as before. -/
theorem State.bufAt_storeSamples_outside (s : State) (first : Nat) (codes : List Sample) (j : Nat)
    (h : j < first ∨ first + codes.length ≤ j) : (s.storeSamples first codes).bufAt j = s.bufAt j := by
  have e0 := s.byteAt_storeSamples_outside first codes (bufAddr j) (by simp [bufAddr]; omega)
  have e1 := s.byteAt_storeSamples_outside first codes (bufAddr j + 1) (by simp [bufAddr]; omega)
  simp [State.bufAt, e0, e1]

end Sys2Proof.Machine
end

