-- ==== Sys2Proof/Laws/Refill.lean ====
section
/-! SUPPORT. The fields that the sequencer and the refill engine leave unchanged, and what one `advance` and one `refill`
can do. -/

namespace Sys2Proof.Machine

variable (s : State)

/-! nextStep -/

@[simp] theorem nextStep_cfg : (nextStep s).cfg = s.cfg := by unfold nextStep; split <;> [rfl; split <;> rfl]
@[simp] theorem nextStep_running : (nextStep s).running = s.running := by unfold nextStep; split <;> [rfl; split <;> rfl]
@[simp] theorem nextStep_channel : (nextStep s).channel = s.channel := by unfold nextStep; split <;> [rfl; split <;> rfl]
@[simp] theorem nextStep_phase : (nextStep s).phase = s.phase := by unfold nextStep; split <;> [rfl; split <;> rfl]
@[simp] theorem nextStep_seqCount : (nextStep s).seqCount = s.seqCount := by unfold nextStep; split <;> [rfl; split <;> rfl]
@[simp] theorem nextStep_seq : (nextStep s).seq = s.seq := by unfold nextStep; split <;> [rfl; split <;> rfl]
@[simp] theorem nextStep_stage : (nextStep s).stage = s.stage := by unfold nextStep; split <;> [rfl; split <;> rfl]
@[simp] theorem nextStep_mem : (nextStep s).mem = s.mem := by unfold nextStep; split <;> [rfl; split <;> rfl]
@[simp] theorem nextStep_dmaPos : (nextStep s).dmaPos = s.dmaPos := by unfold nextStep; split <;> [rfl; split <;> rfl]
@[simp] theorem nextStep_pending : (nextStep s).pending = s.pending := by unfold nextStep; split <;> [rfl; split <;> rfl]
@[simp] theorem nextStep_lastHalf : (nextStep s).lastHalf = s.lastHalf := by unfold nextStep; split <;> [rfl; split <;> rfl]
@[simp] theorem nextStep_initDone : (nextStep s).initDone = s.initDone := by unfold nextStep; split <;> [rfl; split <;> rfl]
@[simp] theorem nextStep_done : (nextStep s).done = s.done := by unfold nextStep; split <;> [rfl; split <;> rfl]
@[simp] theorem nextStep_underrun : (nextStep s).underrun = s.underrun := by unfold nextStep; split <;> [rfl; split <;> rfl]
@[simp] theorem nextStep_result : (nextStep s).result = s.result := by unfold nextStep; split <;> [rfl; split <;> rfl]
@[simp] theorem nextStep_dacOut0 : (nextStep s).dacOut0 = s.dacOut0 := by unfold nextStep; split <;> [rfl; split <;> rfl]
@[simp] theorem nextStep_dacOut1 : (nextStep s).dacOut1 = s.dacOut1 := by unfold nextStep; split <;> [rfl; split <;> rfl]
@[simp] theorem nextStep_faults : (nextStep s).faults = s.faults := by unfold nextStep; split <;> [rfl; split <;> rfl]
@[simp] theorem nextStep_trace : (nextStep s).trace = s.trace := by unfold nextStep; split <;> [rfl; split <;> rfl]
@[simp] theorem nextStep_toOutside : (nextStep s).toOutside = s.toOutside := by unfold nextStep; split <;> [rfl; split <;> rfl]

/-! advance -/

@[simp] theorem advance_cfg (n : Nat) : (advance s n).cfg = s.cfg := by unfold advance; split_ifs <;> simp
@[simp] theorem advance_running (n : Nat) : (advance s n).running = s.running := by unfold advance; split_ifs <;> simp
@[simp] theorem advance_channel (n : Nat) : (advance s n).channel = s.channel := by unfold advance; split_ifs <;> simp
@[simp] theorem advance_phase (n : Nat) : (advance s n).phase = s.phase := by unfold advance; split_ifs <;> simp
@[simp] theorem advance_seqCount (n : Nat) : (advance s n).seqCount = s.seqCount := by unfold advance; split_ifs <;> simp
@[simp] theorem advance_seq (n : Nat) : (advance s n).seq = s.seq := by unfold advance; split_ifs <;> simp
@[simp] theorem advance_stage (n : Nat) : (advance s n).stage = s.stage := by unfold advance; split_ifs <;> simp
@[simp] theorem advance_mem (n : Nat) : (advance s n).mem = s.mem := by unfold advance; split_ifs <;> simp
@[simp] theorem advance_dmaPos (n : Nat) : (advance s n).dmaPos = s.dmaPos := by unfold advance; split_ifs <;> simp
@[simp] theorem advance_pending (n : Nat) : (advance s n).pending = s.pending := by unfold advance; split_ifs <;> simp
@[simp] theorem advance_lastHalf (n : Nat) : (advance s n).lastHalf = s.lastHalf := by unfold advance; split_ifs <;> simp
@[simp] theorem advance_initDone (n : Nat) : (advance s n).initDone = s.initDone := by unfold advance; split_ifs <;> simp
@[simp] theorem advance_done (n : Nat) : (advance s n).done = s.done := by unfold advance; split_ifs <;> simp
@[simp] theorem advance_underrun (n : Nat) : (advance s n).underrun = s.underrun := by unfold advance; split_ifs <;> simp
@[simp] theorem advance_result (n : Nat) : (advance s n).result = s.result := by unfold advance; split_ifs <;> simp
@[simp] theorem advance_dacOut0 (n : Nat) : (advance s n).dacOut0 = s.dacOut0 := by unfold advance; split_ifs <;> simp
@[simp] theorem advance_dacOut1 (n : Nat) : (advance s n).dacOut1 = s.dacOut1 := by unfold advance; split_ifs <;> simp
@[simp] theorem advance_trace (n : Nat) : (advance s n).trace = s.trace := by unfold advance; split_ifs <;> simp
@[simp] theorem advance_toOutside (n : Nat) : (advance s n).toOutside = s.toOutside := by unfold advance; split_ifs <;> simp

/-! fillHalf -/

@[simp] theorem fillHalf_cfg (h : Half) (inc amp : Word) : (fillHalf s h inc amp).cfg = s.cfg := by simp [fillHalf]
@[simp] theorem fillHalf_running (h : Half) (inc amp : Word) : (fillHalf s h inc amp).running = s.running := by simp [fillHalf]
@[simp] theorem fillHalf_channel (h : Half) (inc amp : Word) : (fillHalf s h inc amp).channel = s.channel := by simp [fillHalf]
@[simp] theorem fillHalf_seqState (h : Half) (inc amp : Word) : (fillHalf s h inc amp).seqState = s.seqState := by simp [fillHalf]
@[simp] theorem fillHalf_stepIndex (h : Half) (inc amp : Word) : (fillHalf s h inc amp).stepIndex = s.stepIndex := by simp [fillHalf]
@[simp] theorem fillHalf_remain (h : Half) (inc amp : Word) : (fillHalf s h inc amp).remain = s.remain := by simp [fillHalf]
@[simp] theorem fillHalf_seqCount (h : Half) (inc amp : Word) : (fillHalf s h inc amp).seqCount = s.seqCount := by simp [fillHalf]
@[simp] theorem fillHalf_seq (h : Half) (inc amp : Word) : (fillHalf s h inc amp).seq = s.seq := by simp [fillHalf]
@[simp] theorem fillHalf_stage (h : Half) (inc amp : Word) : (fillHalf s h inc amp).stage = s.stage := by simp [fillHalf]
@[simp] theorem fillHalf_dmaPos (h : Half) (inc amp : Word) : (fillHalf s h inc amp).dmaPos = s.dmaPos := by simp [fillHalf]
@[simp] theorem fillHalf_pending (h : Half) (inc amp : Word) : (fillHalf s h inc amp).pending = s.pending := by simp [fillHalf]
@[simp] theorem fillHalf_lastHalf (h : Half) (inc amp : Word) : (fillHalf s h inc amp).lastHalf = s.lastHalf := by simp [fillHalf]
@[simp] theorem fillHalf_initDone (h : Half) (inc amp : Word) : (fillHalf s h inc amp).initDone = s.initDone := by simp [fillHalf]
@[simp] theorem fillHalf_done (h : Half) (inc amp : Word) : (fillHalf s h inc amp).done = s.done := by simp [fillHalf]
@[simp] theorem fillHalf_underrun (h : Half) (inc amp : Word) : (fillHalf s h inc amp).underrun = s.underrun := by simp [fillHalf]
@[simp] theorem fillHalf_result (h : Half) (inc amp : Word) : (fillHalf s h inc amp).result = s.result := by simp [fillHalf]
@[simp] theorem fillHalf_dacOut0 (h : Half) (inc amp : Word) : (fillHalf s h inc amp).dacOut0 = s.dacOut0 := by simp [fillHalf]
@[simp] theorem fillHalf_dacOut1 (h : Half) (inc amp : Word) : (fillHalf s h inc amp).dacOut1 = s.dacOut1 := by simp [fillHalf]
@[simp] theorem fillHalf_faults (h : Half) (inc amp : Word) : (fillHalf s h inc amp).faults = s.faults := by simp [fillHalf]
@[simp] theorem fillHalf_trace (h : Half) (inc amp : Word) : (fillHalf s h inc amp).trace = s.trace := by simp [fillHalf]
@[simp] theorem fillHalf_toOutside (h : Half) (inc amp : Word) : (fillHalf s h inc amp).toOutside = s.toOutside := by simp [fillHalf]

/-! noteLastHalf -/

@[simp] theorem noteLastHalf_cfg (h : Half) : (noteLastHalf s h).cfg = s.cfg := by unfold noteLastHalf; split <;> rfl
@[simp] theorem noteLastHalf_running (h : Half) : (noteLastHalf s h).running = s.running := by unfold noteLastHalf; split <;> rfl
@[simp] theorem noteLastHalf_channel (h : Half) : (noteLastHalf s h).channel = s.channel := by unfold noteLastHalf; split <;> rfl
@[simp] theorem noteLastHalf_seqState (h : Half) : (noteLastHalf s h).seqState = s.seqState := by unfold noteLastHalf; split <;> rfl
@[simp] theorem noteLastHalf_stepIndex (h : Half) : (noteLastHalf s h).stepIndex = s.stepIndex := by unfold noteLastHalf; split <;> rfl
@[simp] theorem noteLastHalf_remain (h : Half) : (noteLastHalf s h).remain = s.remain := by unfold noteLastHalf; split <;> rfl
@[simp] theorem noteLastHalf_phase (h : Half) : (noteLastHalf s h).phase = s.phase := by unfold noteLastHalf; split <;> rfl
@[simp] theorem noteLastHalf_seqCount (h : Half) : (noteLastHalf s h).seqCount = s.seqCount := by unfold noteLastHalf; split <;> rfl
@[simp] theorem noteLastHalf_seq (h : Half) : (noteLastHalf s h).seq = s.seq := by unfold noteLastHalf; split <;> rfl
@[simp] theorem noteLastHalf_stage (h : Half) : (noteLastHalf s h).stage = s.stage := by unfold noteLastHalf; split <;> rfl
@[simp] theorem noteLastHalf_mem (h : Half) : (noteLastHalf s h).mem = s.mem := by unfold noteLastHalf; split <;> rfl
@[simp] theorem noteLastHalf_dmaPos (h : Half) : (noteLastHalf s h).dmaPos = s.dmaPos := by unfold noteLastHalf; split <;> rfl
@[simp] theorem noteLastHalf_pending (h : Half) : (noteLastHalf s h).pending = s.pending := by unfold noteLastHalf; split <;> rfl
@[simp] theorem noteLastHalf_initDone (h : Half) : (noteLastHalf s h).initDone = s.initDone := by unfold noteLastHalf; split <;> rfl
@[simp] theorem noteLastHalf_done (h : Half) : (noteLastHalf s h).done = s.done := by unfold noteLastHalf; split <;> rfl
@[simp] theorem noteLastHalf_underrun (h : Half) : (noteLastHalf s h).underrun = s.underrun := by unfold noteLastHalf; split <;> rfl
@[simp] theorem noteLastHalf_result (h : Half) : (noteLastHalf s h).result = s.result := by unfold noteLastHalf; split <;> rfl
@[simp] theorem noteLastHalf_dacOut0 (h : Half) : (noteLastHalf s h).dacOut0 = s.dacOut0 := by unfold noteLastHalf; split <;> rfl
@[simp] theorem noteLastHalf_dacOut1 (h : Half) : (noteLastHalf s h).dacOut1 = s.dacOut1 := by unfold noteLastHalf; split <;> rfl
@[simp] theorem noteLastHalf_faults (h : Half) : (noteLastHalf s h).faults = s.faults := by unfold noteLastHalf; split <;> rfl
@[simp] theorem noteLastHalf_trace (h : Half) : (noteLastHalf s h).trace = s.trace := by unfold noteLastHalf; split <;> rfl
@[simp] theorem noteLastHalf_toOutside (h : Half) : (noteLastHalf s h).toOutside = s.toOutside := by unfold noteLastHalf; split <;> rfl

/-! refillActive -/

@[simp] theorem refillActive_cfg (h : Half) : (refillActive s h).cfg = s.cfg := by unfold refillActive; split <;> simp
@[simp] theorem refillActive_running (h : Half) : (refillActive s h).running = s.running := by unfold refillActive; split <;> simp
@[simp] theorem refillActive_channel (h : Half) : (refillActive s h).channel = s.channel := by unfold refillActive; split <;> simp
@[simp] theorem refillActive_seqCount (h : Half) : (refillActive s h).seqCount = s.seqCount := by unfold refillActive; split <;> simp
@[simp] theorem refillActive_seq (h : Half) : (refillActive s h).seq = s.seq := by unfold refillActive; split <;> simp
@[simp] theorem refillActive_stage (h : Half) : (refillActive s h).stage = s.stage := by unfold refillActive; split <;> simp
@[simp] theorem refillActive_dmaPos (h : Half) : (refillActive s h).dmaPos = s.dmaPos := by unfold refillActive; split <;> simp
@[simp] theorem refillActive_pending (h : Half) : (refillActive s h).pending = s.pending := by unfold refillActive; split <;> simp
@[simp] theorem refillActive_initDone (h : Half) : (refillActive s h).initDone = s.initDone := by unfold refillActive; split <;> simp
@[simp] theorem refillActive_done (h : Half) : (refillActive s h).done = s.done := by unfold refillActive; split <;> simp
@[simp] theorem refillActive_underrun (h : Half) : (refillActive s h).underrun = s.underrun := by unfold refillActive; split <;> simp
@[simp] theorem refillActive_result (h : Half) : (refillActive s h).result = s.result := by unfold refillActive; split <;> simp
@[simp] theorem refillActive_dacOut0 (h : Half) : (refillActive s h).dacOut0 = s.dacOut0 := by unfold refillActive; split <;> simp
@[simp] theorem refillActive_dacOut1 (h : Half) : (refillActive s h).dacOut1 = s.dacOut1 := by unfold refillActive; split <;> simp
@[simp] theorem refillActive_trace (h : Half) : (refillActive s h).trace = s.trace := by unfold refillActive; split <;> simp
@[simp] theorem refillActive_toOutside (h : Half) : (refillActive s h).toOutside = s.toOutside := by unfold refillActive; split <;> simp

/-! refillFinished -/

@[simp] theorem refillFinished_cfg (h : Half) : (refillFinished s h).cfg = s.cfg := by simp [refillFinished]
@[simp] theorem refillFinished_running (h : Half) : (refillFinished s h).running = s.running := by simp [refillFinished]
@[simp] theorem refillFinished_channel (h : Half) : (refillFinished s h).channel = s.channel := by simp [refillFinished]
@[simp] theorem refillFinished_seqState (h : Half) : (refillFinished s h).seqState = s.seqState := by simp [refillFinished]
@[simp] theorem refillFinished_stepIndex (h : Half) : (refillFinished s h).stepIndex = s.stepIndex := by simp [refillFinished]
@[simp] theorem refillFinished_remain (h : Half) : (refillFinished s h).remain = s.remain := by simp [refillFinished]
@[simp] theorem refillFinished_phase (h : Half) : (refillFinished s h).phase = s.phase := by simp [refillFinished]
@[simp] theorem refillFinished_seqCount (h : Half) : (refillFinished s h).seqCount = s.seqCount := by simp [refillFinished]
@[simp] theorem refillFinished_seq (h : Half) : (refillFinished s h).seq = s.seq := by simp [refillFinished]
@[simp] theorem refillFinished_stage (h : Half) : (refillFinished s h).stage = s.stage := by simp [refillFinished]
@[simp] theorem refillFinished_dmaPos (h : Half) : (refillFinished s h).dmaPos = s.dmaPos := by simp [refillFinished]
@[simp] theorem refillFinished_pending (h : Half) : (refillFinished s h).pending = s.pending := by simp [refillFinished]
@[simp] theorem refillFinished_lastHalf (h : Half) : (refillFinished s h).lastHalf = s.lastHalf := by simp [refillFinished]
@[simp] theorem refillFinished_initDone (h : Half) : (refillFinished s h).initDone = s.initDone := by simp [refillFinished]
@[simp] theorem refillFinished_done (h : Half) : (refillFinished s h).done = s.done := by simp [refillFinished]
@[simp] theorem refillFinished_underrun (h : Half) : (refillFinished s h).underrun = s.underrun := by simp [refillFinished]
@[simp] theorem refillFinished_result (h : Half) : (refillFinished s h).result = s.result := by simp [refillFinished]
@[simp] theorem refillFinished_dacOut0 (h : Half) : (refillFinished s h).dacOut0 = s.dacOut0 := by simp [refillFinished]
@[simp] theorem refillFinished_dacOut1 (h : Half) : (refillFinished s h).dacOut1 = s.dacOut1 := by simp [refillFinished]
@[simp] theorem refillFinished_faults (h : Half) : (refillFinished s h).faults = s.faults := by simp [refillFinished]
@[simp] theorem refillFinished_trace (h : Half) : (refillFinished s h).trace = s.trace := by simp [refillFinished]
@[simp] theorem refillFinished_toOutside (h : Half) : (refillFinished s h).toOutside = s.toOutside := by simp [refillFinished]

/-! refill -/

@[simp] theorem refill_cfg (h : Half) : (refill s h).cfg = s.cfg := by unfold refill; split <;> simp
@[simp] theorem refill_running (h : Half) : (refill s h).running = s.running := by unfold refill; split <;> simp
@[simp] theorem refill_channel (h : Half) : (refill s h).channel = s.channel := by unfold refill; split <;> simp
@[simp] theorem refill_seqCount (h : Half) : (refill s h).seqCount = s.seqCount := by unfold refill; split <;> simp
@[simp] theorem refill_seq (h : Half) : (refill s h).seq = s.seq := by unfold refill; split <;> simp
@[simp] theorem refill_stage (h : Half) : (refill s h).stage = s.stage := by unfold refill; split <;> simp
@[simp] theorem refill_dmaPos (h : Half) : (refill s h).dmaPos = s.dmaPos := by unfold refill; split <;> simp
@[simp] theorem refill_pending (h : Half) : (refill s h).pending = s.pending := by unfold refill; split <;> simp
@[simp] theorem refill_initDone (h : Half) : (refill s h).initDone = s.initDone := by unfold refill; split <;> simp
@[simp] theorem refill_done (h : Half) : (refill s h).done = s.done := by unfold refill; split <;> simp
@[simp] theorem refill_underrun (h : Half) : (refill s h).underrun = s.underrun := by unfold refill; split <;> simp
@[simp] theorem refill_result (h : Half) : (refill s h).result = s.result := by unfold refill; split <;> simp
@[simp] theorem refill_dacOut0 (h : Half) : (refill s h).dacOut0 = s.dacOut0 := by unfold refill; split <;> simp
@[simp] theorem refill_dacOut1 (h : Half) : (refill s h).dacOut1 = s.dacOut1 := by unfold refill; split <;> simp
@[simp] theorem refill_trace (h : Half) : (refill s h).trace = s.trace := by unfold refill; split <;> simp
@[simp] theorem refill_toOutside (h : Half) : (refill s h).toOutside = s.toOutside := by unfold refill; split <;> simp

/-! prefill -/

@[simp] theorem prefill_cfg : (prefill s).cfg = s.cfg := by simp [prefill]
@[simp] theorem prefill_running : (prefill s).running = s.running := by simp [prefill]
@[simp] theorem prefill_channel : (prefill s).channel = s.channel := by simp [prefill]
@[simp] theorem prefill_seqCount : (prefill s).seqCount = s.seqCount := by simp [prefill]
@[simp] theorem prefill_seq : (prefill s).seq = s.seq := by simp [prefill]
@[simp] theorem prefill_stage : (prefill s).stage = s.stage := by simp [prefill]
@[simp] theorem prefill_dmaPos : (prefill s).dmaPos = s.dmaPos := by simp [prefill]
@[simp] theorem prefill_pending : (prefill s).pending = s.pending := by simp [prefill]
@[simp] theorem prefill_initDone : (prefill s).initDone = s.initDone := by simp [prefill]
@[simp] theorem prefill_done : (prefill s).done = s.done := by simp [prefill]
@[simp] theorem prefill_underrun : (prefill s).underrun = s.underrun := by simp [prefill]
@[simp] theorem prefill_result : (prefill s).result = s.result := by simp [prefill]
@[simp] theorem prefill_dacOut0 : (prefill s).dacOut0 = s.dacOut0 := by simp [prefill]
@[simp] theorem prefill_dacOut1 : (prefill s).dacOut1 = s.dacOut1 := by simp [prefill]
@[simp] theorem prefill_trace : (prefill s).trace = s.trace := by simp [prefill]
@[simp] theorem prefill_toOutside : (prefill s).toOutside = s.toOutside := by simp [prefill]

/-! autoStop -/

@[simp] theorem autoStop_cfg : (autoStop s).cfg = s.cfg := rfl
@[simp] theorem autoStop_channel : (autoStop s).channel = s.channel := rfl
@[simp] theorem autoStop_seqCount : (autoStop s).seqCount = s.seqCount := rfl
@[simp] theorem autoStop_seq : (autoStop s).seq = s.seq := rfl
@[simp] theorem autoStop_stage : (autoStop s).stage = s.stage := rfl
@[simp] theorem autoStop_mem : (autoStop s).mem = s.mem := rfl
@[simp] theorem autoStop_initDone : (autoStop s).initDone = s.initDone := rfl
@[simp] theorem autoStop_underrun : (autoStop s).underrun = s.underrun := rfl
@[simp] theorem autoStop_result : (autoStop s).result = s.result := rfl
@[simp] theorem autoStop_dacOut0 : (autoStop s).dacOut0 = s.dacOut0 := rfl
@[simp] theorem autoStop_dacOut1 : (autoStop s).dacOut1 = s.dacOut1 := rfl
@[simp] theorem autoStop_faults : (autoStop s).faults = s.faults := rfl
@[simp] theorem autoStop_trace : (autoStop s).trace = s.trace := rfl
@[simp] theorem autoStop_toOutside : (autoStop s).toOutside = s.toOutside := rfl

/-! seqStart -/

@[simp] theorem seqStart_cfg : (seqStart s).cfg = s.cfg := rfl
@[simp] theorem seqStart_running : (seqStart s).running = s.running := rfl
@[simp] theorem seqStart_channel : (seqStart s).channel = s.channel := rfl
@[simp] theorem seqStart_seqCount : (seqStart s).seqCount = s.seqCount := rfl
@[simp] theorem seqStart_seq : (seqStart s).seq = s.seq := rfl
@[simp] theorem seqStart_stage : (seqStart s).stage = s.stage := rfl
@[simp] theorem seqStart_mem : (seqStart s).mem = s.mem := rfl
@[simp] theorem seqStart_dmaPos : (seqStart s).dmaPos = s.dmaPos := rfl
@[simp] theorem seqStart_pending : (seqStart s).pending = s.pending := rfl
@[simp] theorem seqStart_lastHalf : (seqStart s).lastHalf = s.lastHalf := rfl
@[simp] theorem seqStart_initDone : (seqStart s).initDone = s.initDone := rfl
@[simp] theorem seqStart_done : (seqStart s).done = s.done := rfl
@[simp] theorem seqStart_underrun : (seqStart s).underrun = s.underrun := rfl
@[simp] theorem seqStart_result : (seqStart s).result = s.result := rfl
@[simp] theorem seqStart_dacOut0 : (seqStart s).dacOut0 = s.dacOut0 := rfl
@[simp] theorem seqStart_dacOut1 : (seqStart s).dacOut1 = s.dacOut1 := rfl
@[simp] theorem seqStart_faults : (seqStart s).faults = s.faults := rfl
@[simp] theorem seqStart_trace : (seqStart s).trace = s.trace := rfl
@[simp] theorem seqStart_toOutside : (seqStart s).toOutside = s.toOutside := rfl

/-! What one `advance` of an Active sequencer can do, where `n` samples remain (43_step_sequencer.md R236). -/

theorem advance_stays (n : Nat) (ha : s.seqState = .active) (hn : n < s.remain.toNat) :
    advance s n = { s with remain := s.remain - BitVec.ofNat 64 n } := by
  simp [advance, ha, show ¬ s.remain.toNat < n by omega, show s.remain.toNat ≠ n by omega]

theorem advance_ends (n : Nat) (ha : s.seqState = .active) (hn : s.remain.toNat = n) :
    advance s n = nextStep { s with remain := 0#64 } := by
  simp [advance, ha, hn]

theorem advance_toNextStep (n : Nat) (ha : s.seqState = .active) (hn : s.remain.toNat = n)
    (hk : s.stepIndex.toNat + 1 < s.seqCount.toNat) :
    advance s n =
      { s with stepIndex := s.stepIndex + 1#8, remain := (s.seqAt (s.stepIndex.toNat + 1)).samples } := by
  rw [advance_ends s n ha hn]
  exact if_pos hk

theorem advance_loops (n : Nat) (ha : s.seqState = .active) (hn : s.remain.toNat = n)
    (hk : ¬ s.stepIndex.toNat + 1 < s.seqCount.toNat) (hp : s.cfg.endPolicy = .loop) :
    advance s n = { s with stepIndex := 0#8, remain := (s.seqAt 0).samples } := by
  rw [advance_ends s n ha hn]
  simp only [nextStep, if_neg hk, hp]
  rfl

theorem advance_finishes (n : Nat) (ha : s.seqState = .active) (hn : s.remain.toNat = n)
    (hk : ¬ s.stepIndex.toNat + 1 < s.seqCount.toNat) (hp : s.cfg.endPolicy = .halt) :
    advance s n = { s with remain := 0#64, seqState := .finished } := by
  rw [advance_ends s n ha hn]
  simp only [nextStep, if_neg hk, hp]

/-! Refill by sequencer state (42_buffer_refill.md R200, R201). -/

theorem refill_of_active (h : Half) (ha : s.seqState = .active) :
    refill s h =
      noteLastHalf
        (advance (fillHalf s h (s.seqAt s.stepIndex.toNat).inc (s.seqAt s.stepIndex.toNat).amp) s.cfg.half) h := by
  simp [refill, ha, refillActive, currentParameters]

theorem refill_of_finished (h : Half) (hf : s.seqState = .finished) : refill s h = refillFinished s h := by
  simp [refill, hf]

/-- The half filled from the current step's parameters, which every refill in the Active state starts with. -/
abbrev filled (h : Half) : State := fillHalf s h (s.seqAt s.stepIndex.toNat).inc (s.seqAt s.stepIndex.toNat).amp

theorem refill_stays (h : Half) (ha : s.seqState = .active) (hn : s.cfg.half < s.remain.toNat) :
    refill s h = { filled s h with remain := s.remain - BitVec.ofNat 64 s.cfg.half } := by
  rw [refill_of_active s h ha, advance_stays (filled s h) _ ha hn]
  exact if_neg (show s.seqState ≠ .finished by rw [ha]; simp)

theorem refill_toNextStep (h : Half) (ha : s.seqState = .active) (hn : s.remain.toNat = s.cfg.half)
    (hk : s.stepIndex.toNat + 1 < s.seqCount.toNat) :
    refill s h = { filled s h with
      stepIndex := s.stepIndex + 1#8, remain := (s.seqAt (s.stepIndex.toNat + 1)).samples } := by
  rw [refill_of_active s h ha, advance_toNextStep (filled s h) _ ha hn hk]
  exact if_neg (show s.seqState ≠ .finished by rw [ha]; simp)

theorem refill_loops (h : Half) (ha : s.seqState = .active) (hn : s.remain.toNat = s.cfg.half)
    (hk : ¬ s.stepIndex.toNat + 1 < s.seqCount.toNat) (hp : s.cfg.endPolicy = .loop) :
    refill s h = { filled s h with stepIndex := 0#8, remain := (s.seqAt 0).samples } := by
  rw [refill_of_active s h ha, advance_loops (filled s h) _ ha hn hk hp]
  exact if_neg (show s.seqState ≠ .finished by rw [ha]; simp)

theorem refill_finishes (h : Half) (ha : s.seqState = .active) (hn : s.remain.toNat = s.cfg.half)
    (hk : ¬ s.stepIndex.toNat + 1 < s.seqCount.toNat) (hp : s.cfg.endPolicy = .halt) :
    refill s h = { filled s h with remain := 0#64, seqState := .finished, lastHalf := some h } := by
  rw [refill_of_active s h ha, advance_finishes (filled s h) _ ha hn hk hp]
  exact if_pos rfl

/-! Memory after a refill. -/

@[simp] theorem synth_length (c : Config) (inc amp phase : Word) (n : Nat) : (synth c inc amp phase n).length = n := by
  induction n generalizing phase with
  | zero => rfl
  | succ n ih => simp [synth, ih]

@[simp] theorem refillActive_mem (h : Half) (ha : s.seqState = .active) :
    (refillActive s h).mem =
      (s.storeSamples (halfBase s.cfg h)
        (synth s.cfg (s.seqAt s.stepIndex.toNat).inc (s.seqAt s.stepIndex.toNat).amp s.phase s.cfg.half)).mem := by
  simp [refillActive, currentParameters, ha, fillHalf]

/-- Every refill keeps the canonical form of memory. -/
theorem refill_mem_wf (h : Half) (hw : Memory.wf s.mem) : Memory.wf (refill s h).mem := by
  cases hs : s.seqState with
  | active =>
    rw [show refill s h = refillActive s h by simp [refill, hs], refillActive_mem s h hs]
    exact Memory.wf_store _ _ _ hw
  | finished =>
    rw [refill_of_finished s h hs]
    exact Memory.wf_store _ _ _ hw
  | notConfigured => simpa [refill, hs] using hw
  | configured => simpa [refill, hs] using hw

end Sys2Proof.Machine
end

