-- ==== Sys2Proof/Laws/Step.lean ====
section
/-! SUPPORT. The fields that ticks, event handlers and commands leave unchanged, and the inversion of a step: what a step
that answers a next state can have been. -/

namespace Sys2Proof.Machine

variable (s : State)

/-! noteUnderrun -/

@[simp] theorem noteUnderrun_cfg : (noteUnderrun s).cfg = s.cfg := by unfold noteUnderrun; split <;> rfl
@[simp] theorem noteUnderrun_running : (noteUnderrun s).running = s.running := by unfold noteUnderrun; split <;> rfl
@[simp] theorem noteUnderrun_channel : (noteUnderrun s).channel = s.channel := by unfold noteUnderrun; split <;> rfl
@[simp] theorem noteUnderrun_seqState : (noteUnderrun s).seqState = s.seqState := by unfold noteUnderrun; split <;> rfl
@[simp] theorem noteUnderrun_stepIndex : (noteUnderrun s).stepIndex = s.stepIndex := by unfold noteUnderrun; split <;> rfl
@[simp] theorem noteUnderrun_remain : (noteUnderrun s).remain = s.remain := by unfold noteUnderrun; split <;> rfl
@[simp] theorem noteUnderrun_phase : (noteUnderrun s).phase = s.phase := by unfold noteUnderrun; split <;> rfl
@[simp] theorem noteUnderrun_seqCount : (noteUnderrun s).seqCount = s.seqCount := by unfold noteUnderrun; split <;> rfl
@[simp] theorem noteUnderrun_seq : (noteUnderrun s).seq = s.seq := by unfold noteUnderrun; split <;> rfl
@[simp] theorem noteUnderrun_stage : (noteUnderrun s).stage = s.stage := by unfold noteUnderrun; split <;> rfl
@[simp] theorem noteUnderrun_mem : (noteUnderrun s).mem = s.mem := by unfold noteUnderrun; split <;> rfl
@[simp] theorem noteUnderrun_dmaPos : (noteUnderrun s).dmaPos = s.dmaPos := by unfold noteUnderrun; split <;> rfl
@[simp] theorem noteUnderrun_pending : (noteUnderrun s).pending = s.pending := by unfold noteUnderrun; split <;> rfl
@[simp] theorem noteUnderrun_lastHalf : (noteUnderrun s).lastHalf = s.lastHalf := by unfold noteUnderrun; split <;> rfl
@[simp] theorem noteUnderrun_initDone : (noteUnderrun s).initDone = s.initDone := by unfold noteUnderrun; split <;> rfl
@[simp] theorem noteUnderrun_done : (noteUnderrun s).done = s.done := by unfold noteUnderrun; split <;> rfl
@[simp] theorem noteUnderrun_result : (noteUnderrun s).result = s.result := by unfold noteUnderrun; split <;> rfl
@[simp] theorem noteUnderrun_dacOut0 : (noteUnderrun s).dacOut0 = s.dacOut0 := by unfold noteUnderrun; split <;> rfl
@[simp] theorem noteUnderrun_dacOut1 : (noteUnderrun s).dacOut1 = s.dacOut1 := by unfold noteUnderrun; split <;> rfl
@[simp] theorem noteUnderrun_trace : (noteUnderrun s).trace = s.trace := by unfold noteUnderrun; split <;> rfl
@[simp] theorem noteUnderrun_toOutside : (noteUnderrun s).toOutside = s.toOutside := by unfold noteUnderrun; split <;> rfl

/-! transfer -/

@[simp] theorem transfer_cfg : (transfer s).cfg = s.cfg := by simp [transfer]
@[simp] theorem transfer_running : (transfer s).running = s.running := by simp [transfer]
@[simp] theorem transfer_channel : (transfer s).channel = s.channel := by simp [transfer]
@[simp] theorem transfer_seqState : (transfer s).seqState = s.seqState := by simp [transfer]
@[simp] theorem transfer_stepIndex : (transfer s).stepIndex = s.stepIndex := by simp [transfer]
@[simp] theorem transfer_remain : (transfer s).remain = s.remain := by simp [transfer]
@[simp] theorem transfer_phase : (transfer s).phase = s.phase := by simp [transfer]
@[simp] theorem transfer_seqCount : (transfer s).seqCount = s.seqCount := by simp [transfer]
@[simp] theorem transfer_seq : (transfer s).seq = s.seq := by simp [transfer]
@[simp] theorem transfer_stage : (transfer s).stage = s.stage := by simp [transfer]
@[simp] theorem transfer_mem : (transfer s).mem = s.mem := by simp [transfer]
@[simp] theorem transfer_dmaPos : (transfer s).dmaPos = s.dmaPos := by simp [transfer]
@[simp] theorem transfer_pending : (transfer s).pending = s.pending := by simp [transfer]
@[simp] theorem transfer_lastHalf : (transfer s).lastHalf = s.lastHalf := by simp [transfer]
@[simp] theorem transfer_initDone : (transfer s).initDone = s.initDone := by simp [transfer]
@[simp] theorem transfer_done : (transfer s).done = s.done := by simp [transfer]
@[simp] theorem transfer_underrun : (transfer s).underrun = s.underrun := by simp [transfer]
@[simp] theorem transfer_result : (transfer s).result = s.result := by simp [transfer]
@[simp] theorem transfer_faults : (transfer s).faults = s.faults := by simp [transfer]
@[simp] theorem transfer_toOutside : (transfer s).toOutside = s.toOutside := by simp [transfer]

/-! tickEvents -/

@[simp] theorem tickEvents_cfg : (tickEvents s).cfg = s.cfg := by unfold tickEvents; split_ifs <;> simp
@[simp] theorem tickEvents_running : (tickEvents s).running = s.running := by unfold tickEvents; split_ifs <;> simp
@[simp] theorem tickEvents_channel : (tickEvents s).channel = s.channel := by unfold tickEvents; split_ifs <;> simp
@[simp] theorem tickEvents_seqState : (tickEvents s).seqState = s.seqState := by unfold tickEvents; split_ifs <;> simp
@[simp] theorem tickEvents_stepIndex : (tickEvents s).stepIndex = s.stepIndex := by unfold tickEvents; split_ifs <;> simp
@[simp] theorem tickEvents_remain : (tickEvents s).remain = s.remain := by unfold tickEvents; split_ifs <;> simp
@[simp] theorem tickEvents_phase : (tickEvents s).phase = s.phase := by unfold tickEvents; split_ifs <;> simp
@[simp] theorem tickEvents_seqCount : (tickEvents s).seqCount = s.seqCount := by unfold tickEvents; split_ifs <;> simp
@[simp] theorem tickEvents_seq : (tickEvents s).seq = s.seq := by unfold tickEvents; split_ifs <;> simp
@[simp] theorem tickEvents_stage : (tickEvents s).stage = s.stage := by unfold tickEvents; split_ifs <;> simp
@[simp] theorem tickEvents_mem : (tickEvents s).mem = s.mem := by unfold tickEvents; split_ifs <;> simp
@[simp] theorem tickEvents_dmaPos : (tickEvents s).dmaPos = s.dmaPos := by unfold tickEvents; split_ifs <;> simp
@[simp] theorem tickEvents_lastHalf : (tickEvents s).lastHalf = s.lastHalf := by unfold tickEvents; split_ifs <;> simp
@[simp] theorem tickEvents_initDone : (tickEvents s).initDone = s.initDone := by unfold tickEvents; split_ifs <;> simp
@[simp] theorem tickEvents_done : (tickEvents s).done = s.done := by unfold tickEvents; split_ifs <;> simp
@[simp] theorem tickEvents_underrun : (tickEvents s).underrun = s.underrun := by unfold tickEvents; split_ifs <;> simp
@[simp] theorem tickEvents_result : (tickEvents s).result = s.result := by unfold tickEvents; split_ifs <;> simp
@[simp] theorem tickEvents_dacOut0 : (tickEvents s).dacOut0 = s.dacOut0 := by unfold tickEvents; split_ifs <;> simp
@[simp] theorem tickEvents_dacOut1 : (tickEvents s).dacOut1 = s.dacOut1 := by unfold tickEvents; split_ifs <;> simp
@[simp] theorem tickEvents_faults : (tickEvents s).faults = s.faults := by unfold tickEvents; split_ifs <;> simp
@[simp] theorem tickEvents_trace : (tickEvents s).trace = s.trace := by unfold tickEvents; split_ifs <;> simp
@[simp] theorem tickEvents_toOutside : (tickEvents s).toOutside = s.toOutside := by unfold tickEvents; split_ifs <;> simp

/-! tick -/

@[simp] theorem tick_cfg : (tick s).cfg = s.cfg := by simp [tick]
@[simp] theorem tick_running : (tick s).running = s.running := by simp [tick]
@[simp] theorem tick_channel : (tick s).channel = s.channel := by simp [tick]
@[simp] theorem tick_seqState : (tick s).seqState = s.seqState := by simp [tick]
@[simp] theorem tick_stepIndex : (tick s).stepIndex = s.stepIndex := by simp [tick]
@[simp] theorem tick_remain : (tick s).remain = s.remain := by simp [tick]
@[simp] theorem tick_phase : (tick s).phase = s.phase := by simp [tick]
@[simp] theorem tick_seqCount : (tick s).seqCount = s.seqCount := by simp [tick]
@[simp] theorem tick_seq : (tick s).seq = s.seq := by simp [tick]
@[simp] theorem tick_stage : (tick s).stage = s.stage := by simp [tick]
@[simp] theorem tick_mem : (tick s).mem = s.mem := by simp [tick]
@[simp] theorem tick_lastHalf : (tick s).lastHalf = s.lastHalf := by simp [tick]
@[simp] theorem tick_initDone : (tick s).initDone = s.initDone := by simp [tick]
@[simp] theorem tick_done : (tick s).done = s.done := by simp [tick]
@[simp] theorem tick_result : (tick s).result = s.result := by simp [tick]
@[simp] theorem tick_toOutside : (tick s).toOutside = s.toOutside := by simp [tick]

/-! handler -/

@[simp] theorem handler_cfg (e : DmaEvent) : (handler s e).cfg = s.cfg := by unfold handler; split <;> simp
@[simp] theorem handler_channel (e : DmaEvent) : (handler s e).channel = s.channel := by unfold handler; split <;> simp
@[simp] theorem handler_seqCount (e : DmaEvent) : (handler s e).seqCount = s.seqCount := by unfold handler; split <;> simp
@[simp] theorem handler_seq (e : DmaEvent) : (handler s e).seq = s.seq := by unfold handler; split <;> simp
@[simp] theorem handler_stage (e : DmaEvent) : (handler s e).stage = s.stage := by unfold handler; split <;> simp
@[simp] theorem handler_initDone (e : DmaEvent) : (handler s e).initDone = s.initDone := by unfold handler; split <;> simp
@[simp] theorem handler_underrun (e : DmaEvent) : (handler s e).underrun = s.underrun := by unfold handler; split <;> simp
@[simp] theorem handler_result (e : DmaEvent) : (handler s e).result = s.result := by unfold handler; split <;> simp
@[simp] theorem handler_dacOut0 (e : DmaEvent) : (handler s e).dacOut0 = s.dacOut0 := by unfold handler; split <;> simp
@[simp] theorem handler_dacOut1 (e : DmaEvent) : (handler s e).dacOut1 = s.dacOut1 := by unfold handler; split <;> simp
@[simp] theorem handler_trace (e : DmaEvent) : (handler s e).trace = s.trace := by unfold handler; split <;> simp
@[simp] theorem handler_toOutside (e : DmaEvent) : (handler s e).toOutside = s.toOutside := by unfold handler; split <;> simp

/-! initClear -/

@[simp] theorem initClear_cfg : (initClear s).cfg = s.cfg := rfl
@[simp] theorem initClear_running : (initClear s).running = s.running := rfl
@[simp] theorem initClear_stepIndex : (initClear s).stepIndex = s.stepIndex := rfl
@[simp] theorem initClear_remain : (initClear s).remain = s.remain := rfl
@[simp] theorem initClear_phase : (initClear s).phase = s.phase := rfl
@[simp] theorem initClear_stage : (initClear s).stage = s.stage := rfl
@[simp] theorem initClear_mem : (initClear s).mem = s.mem := rfl
@[simp] theorem initClear_dmaPos : (initClear s).dmaPos = s.dmaPos := rfl
@[simp] theorem initClear_pending : (initClear s).pending = s.pending := rfl
@[simp] theorem initClear_lastHalf : (initClear s).lastHalf = s.lastHalf := rfl
@[simp] theorem initClear_initDone : (initClear s).initDone = s.initDone := rfl
@[simp] theorem initClear_result : (initClear s).result = s.result := rfl
@[simp] theorem initClear_dacOut0 : (initClear s).dacOut0 = s.dacOut0 := rfl
@[simp] theorem initClear_dacOut1 : (initClear s).dacOut1 = s.dacOut1 := rfl
@[simp] theorem initClear_faults : (initClear s).faults = s.faults := rfl
@[simp] theorem initClear_trace : (initClear s).trace = s.trace := rfl
@[simp] theorem initClear_toOutside : (initClear s).toOutside = s.toOutside := rfl

/-! initEffects -/

@[simp] theorem initEffects_cfg : (initEffects s).cfg = s.cfg := by simp only [initEffects]; split <;> simp
@[simp] theorem initEffects_stage : (initEffects s).stage = s.stage := by simp only [initEffects]; split <;> simp
@[simp] theorem initEffects_mem : (initEffects s).mem = s.mem := by simp only [initEffects]; split <;> simp
@[simp] theorem initEffects_result : (initEffects s).result = s.result := by simp only [initEffects]; split <;> simp
@[simp] theorem initEffects_dacOut0 : (initEffects s).dacOut0 = s.dacOut0 := by simp only [initEffects]; split <;> simp
@[simp] theorem initEffects_dacOut1 : (initEffects s).dacOut1 = s.dacOut1 := by simp only [initEffects]; split <;> simp
@[simp] theorem initEffects_faults : (initEffects s).faults = s.faults := by simp only [initEffects]; split <;> simp
@[simp] theorem initEffects_trace : (initEffects s).trace = s.trace := by simp only [initEffects]; split <;> simp
@[simp] theorem initEffects_schedule : (initEffects s).schedule = s.schedule := by simp only [initEffects]; split <;> simp
@[simp] theorem initEffects_epoch : (initEffects s).epoch = s.epoch := by simp only [initEffects]; split <;> simp
@[simp] theorem initEffects_readData : (initEffects s).readData = s.readData := by simp only [initEffects]; split <;> simp

/-! doInit -/

@[simp] theorem doInit_cfg : (doInit s).cfg = s.cfg := by unfold doInit; split <;> simp
@[simp] theorem doInit_stage : (doInit s).stage = s.stage := by unfold doInit; split <;> simp
@[simp] theorem doInit_mem : (doInit s).mem = s.mem := by unfold doInit; split <;> simp
@[simp] theorem doInit_dacOut0 : (doInit s).dacOut0 = s.dacOut0 := by unfold doInit; split <;> simp
@[simp] theorem doInit_dacOut1 : (doInit s).dacOut1 = s.dacOut1 := by unfold doInit; split <;> simp
@[simp] theorem doInit_faults : (doInit s).faults = s.faults := by unfold doInit; split <;> simp
@[simp] theorem doInit_trace : (doInit s).trace = s.trace := by unfold doInit; split <;> simp
@[simp] theorem doInit_schedule : (doInit s).schedule = s.schedule := by unfold doInit; split <;> simp
@[simp] theorem doInit_epoch : (doInit s).epoch = s.epoch := by unfold doInit; split <;> simp
@[simp] theorem doInit_readData : (doInit s).readData = s.readData := by unfold doInit; split <;> simp

/-! configureCommit -/

@[simp] theorem configureCommit_cfg (n : Nat) : (configureCommit s n).cfg = s.cfg := rfl
@[simp] theorem configureCommit_running (n : Nat) : (configureCommit s n).running = s.running := rfl
@[simp] theorem configureCommit_channel (n : Nat) : (configureCommit s n).channel = s.channel := rfl
@[simp] theorem configureCommit_stepIndex (n : Nat) : (configureCommit s n).stepIndex = s.stepIndex := rfl
@[simp] theorem configureCommit_remain (n : Nat) : (configureCommit s n).remain = s.remain := rfl
@[simp] theorem configureCommit_phase (n : Nat) : (configureCommit s n).phase = s.phase := rfl
@[simp] theorem configureCommit_stage (n : Nat) : (configureCommit s n).stage = s.stage := rfl
@[simp] theorem configureCommit_mem (n : Nat) : (configureCommit s n).mem = s.mem := rfl
@[simp] theorem configureCommit_dmaPos (n : Nat) : (configureCommit s n).dmaPos = s.dmaPos := rfl
@[simp] theorem configureCommit_pending (n : Nat) : (configureCommit s n).pending = s.pending := rfl
@[simp] theorem configureCommit_lastHalf (n : Nat) : (configureCommit s n).lastHalf = s.lastHalf := rfl
@[simp] theorem configureCommit_initDone (n : Nat) : (configureCommit s n).initDone = s.initDone := rfl
@[simp] theorem configureCommit_done (n : Nat) : (configureCommit s n).done = s.done := rfl
@[simp] theorem configureCommit_underrun (n : Nat) : (configureCommit s n).underrun = s.underrun := rfl
@[simp] theorem configureCommit_result (n : Nat) : (configureCommit s n).result = s.result := rfl
@[simp] theorem configureCommit_dacOut0 (n : Nat) : (configureCommit s n).dacOut0 = s.dacOut0 := rfl
@[simp] theorem configureCommit_dacOut1 (n : Nat) : (configureCommit s n).dacOut1 = s.dacOut1 := rfl
@[simp] theorem configureCommit_faults (n : Nat) : (configureCommit s n).faults = s.faults := rfl
@[simp] theorem configureCommit_trace (n : Nat) : (configureCommit s n).trace = s.trace := rfl
@[simp] theorem configureCommit_toOutside (n : Nat) : (configureCommit s n).toOutside = s.toOutside := rfl

/-! doSetSequence -/

@[simp] theorem doSetSequence_cfg (n : Nat) : (doSetSequence s n).cfg = s.cfg := by unfold doSetSequence; split_ifs <;> simp
@[simp] theorem doSetSequence_running (n : Nat) : (doSetSequence s n).running = s.running := by unfold doSetSequence; split_ifs <;> simp
@[simp] theorem doSetSequence_channel (n : Nat) : (doSetSequence s n).channel = s.channel := by unfold doSetSequence; split_ifs <;> simp
@[simp] theorem doSetSequence_stepIndex (n : Nat) : (doSetSequence s n).stepIndex = s.stepIndex := by unfold doSetSequence; split_ifs <;> simp
@[simp] theorem doSetSequence_remain (n : Nat) : (doSetSequence s n).remain = s.remain := by unfold doSetSequence; split_ifs <;> simp
@[simp] theorem doSetSequence_phase (n : Nat) : (doSetSequence s n).phase = s.phase := by unfold doSetSequence; split_ifs <;> simp
@[simp] theorem doSetSequence_stage (n : Nat) : (doSetSequence s n).stage = s.stage := by unfold doSetSequence; split_ifs <;> simp
@[simp] theorem doSetSequence_mem (n : Nat) : (doSetSequence s n).mem = s.mem := by unfold doSetSequence; split_ifs <;> simp
@[simp] theorem doSetSequence_dmaPos (n : Nat) : (doSetSequence s n).dmaPos = s.dmaPos := by unfold doSetSequence; split_ifs <;> simp
@[simp] theorem doSetSequence_pending (n : Nat) : (doSetSequence s n).pending = s.pending := by unfold doSetSequence; split_ifs <;> simp
@[simp] theorem doSetSequence_lastHalf (n : Nat) : (doSetSequence s n).lastHalf = s.lastHalf := by unfold doSetSequence; split_ifs <;> simp
@[simp] theorem doSetSequence_initDone (n : Nat) : (doSetSequence s n).initDone = s.initDone := by unfold doSetSequence; split_ifs <;> simp
@[simp] theorem doSetSequence_done (n : Nat) : (doSetSequence s n).done = s.done := by unfold doSetSequence; split_ifs <;> simp
@[simp] theorem doSetSequence_underrun (n : Nat) : (doSetSequence s n).underrun = s.underrun := by unfold doSetSequence; split_ifs <;> simp
@[simp] theorem doSetSequence_dacOut0 (n : Nat) : (doSetSequence s n).dacOut0 = s.dacOut0 := by unfold doSetSequence; split_ifs <;> simp
@[simp] theorem doSetSequence_dacOut1 (n : Nat) : (doSetSequence s n).dacOut1 = s.dacOut1 := by unfold doSetSequence; split_ifs <;> simp
@[simp] theorem doSetSequence_faults (n : Nat) : (doSetSequence s n).faults = s.faults := by unfold doSetSequence; split_ifs <;> simp
@[simp] theorem doSetSequence_trace (n : Nat) : (doSetSequence s n).trace = s.trace := by unfold doSetSequence; split_ifs <;> simp
@[simp] theorem doSetSequence_toOutside (n : Nat) : (doSetSequence s n).toOutside = s.toOutside := by unfold doSetSequence; split_ifs <;> simp

/-! startArm -/

@[simp] theorem startArm_cfg (ch : Channel) : (startArm s ch).cfg = s.cfg := rfl
@[simp] theorem startArm_running (ch : Channel) : (startArm s ch).running = s.running := rfl
@[simp] theorem startArm_seqState (ch : Channel) : (startArm s ch).seqState = s.seqState := rfl
@[simp] theorem startArm_stepIndex (ch : Channel) : (startArm s ch).stepIndex = s.stepIndex := rfl
@[simp] theorem startArm_remain (ch : Channel) : (startArm s ch).remain = s.remain := rfl
@[simp] theorem startArm_phase (ch : Channel) : (startArm s ch).phase = s.phase := rfl
@[simp] theorem startArm_seqCount (ch : Channel) : (startArm s ch).seqCount = s.seqCount := rfl
@[simp] theorem startArm_seq (ch : Channel) : (startArm s ch).seq = s.seq := rfl
@[simp] theorem startArm_stage (ch : Channel) : (startArm s ch).stage = s.stage := rfl
@[simp] theorem startArm_mem (ch : Channel) : (startArm s ch).mem = s.mem := rfl
@[simp] theorem startArm_initDone (ch : Channel) : (startArm s ch).initDone = s.initDone := rfl
@[simp] theorem startArm_underrun (ch : Channel) : (startArm s ch).underrun = s.underrun := rfl
@[simp] theorem startArm_result (ch : Channel) : (startArm s ch).result = s.result := rfl
@[simp] theorem startArm_dacOut0 (ch : Channel) : (startArm s ch).dacOut0 = s.dacOut0 := rfl
@[simp] theorem startArm_dacOut1 (ch : Channel) : (startArm s ch).dacOut1 = s.dacOut1 := rfl
@[simp] theorem startArm_faults (ch : Channel) : (startArm s ch).faults = s.faults := rfl
@[simp] theorem startArm_trace (ch : Channel) : (startArm s ch).trace = s.trace := rfl
@[simp] theorem startArm_toOutside (ch : Channel) : (startArm s ch).toOutside = s.toOutside := rfl

/-! startCommit -/

@[simp] theorem startCommit_cfg (ch : Channel) : (startCommit s ch).cfg = s.cfg := by simp [startCommit]
@[simp] theorem startCommit_seqCount (ch : Channel) : (startCommit s ch).seqCount = s.seqCount := by simp [startCommit]
@[simp] theorem startCommit_seq (ch : Channel) : (startCommit s ch).seq = s.seq := by simp [startCommit]
@[simp] theorem startCommit_stage (ch : Channel) : (startCommit s ch).stage = s.stage := by simp [startCommit]
@[simp] theorem startCommit_initDone (ch : Channel) : (startCommit s ch).initDone = s.initDone := by simp [startCommit]
@[simp] theorem startCommit_underrun (ch : Channel) : (startCommit s ch).underrun = s.underrun := by simp [startCommit]
@[simp] theorem startCommit_result (ch : Channel) : (startCommit s ch).result = s.result := by simp [startCommit]
@[simp] theorem startCommit_dacOut0 (ch : Channel) : (startCommit s ch).dacOut0 = s.dacOut0 := by simp [startCommit]
@[simp] theorem startCommit_dacOut1 (ch : Channel) : (startCommit s ch).dacOut1 = s.dacOut1 := by simp [startCommit]
@[simp] theorem startCommit_trace (ch : Channel) : (startCommit s ch).trace = s.trace := by simp [startCommit]
@[simp] theorem startCommit_toOutside (ch : Channel) : (startCommit s ch).toOutside = s.toOutside := by simp [startCommit]

/-! startDraws -/

@[simp] theorem startDraws_cfg : (startDraws s).cfg = s.cfg := rfl
@[simp] theorem startDraws_running : (startDraws s).running = s.running := rfl
@[simp] theorem startDraws_channel : (startDraws s).channel = s.channel := rfl
@[simp] theorem startDraws_seqState : (startDraws s).seqState = s.seqState := rfl
@[simp] theorem startDraws_stepIndex : (startDraws s).stepIndex = s.stepIndex := rfl
@[simp] theorem startDraws_remain : (startDraws s).remain = s.remain := rfl
@[simp] theorem startDraws_phase : (startDraws s).phase = s.phase := rfl
@[simp] theorem startDraws_seqCount : (startDraws s).seqCount = s.seqCount := rfl
@[simp] theorem startDraws_seq : (startDraws s).seq = s.seq := rfl
@[simp] theorem startDraws_stage : (startDraws s).stage = s.stage := rfl
@[simp] theorem startDraws_mem : (startDraws s).mem = s.mem := rfl
@[simp] theorem startDraws_dmaPos : (startDraws s).dmaPos = s.dmaPos := rfl
@[simp] theorem startDraws_pending : (startDraws s).pending = s.pending := rfl
@[simp] theorem startDraws_lastHalf : (startDraws s).lastHalf = s.lastHalf := rfl
@[simp] theorem startDraws_initDone : (startDraws s).initDone = s.initDone := rfl
@[simp] theorem startDraws_done : (startDraws s).done = s.done := rfl
@[simp] theorem startDraws_underrun : (startDraws s).underrun = s.underrun := rfl
@[simp] theorem startDraws_result : (startDraws s).result = s.result := rfl
@[simp] theorem startDraws_dacOut0 : (startDraws s).dacOut0 = s.dacOut0 := rfl
@[simp] theorem startDraws_dacOut1 : (startDraws s).dacOut1 = s.dacOut1 := rfl
@[simp] theorem startDraws_faults : (startDraws s).faults = s.faults := rfl
@[simp] theorem startDraws_trace : (startDraws s).trace = s.trace := rfl
@[simp] theorem startDraws_schedule : (startDraws s).schedule = s.schedule := rfl
@[simp] theorem startDraws_epoch : (startDraws s).epoch = s.epoch := rfl
@[simp] theorem startDraws_readData : (startDraws s).readData = s.readData := rfl

/-! doStartOutput -/

@[simp] theorem doStartOutput_cfg (ch : Channel) : (doStartOutput s ch).cfg = s.cfg := by unfold doStartOutput; split_ifs <;> simp
@[simp] theorem doStartOutput_seqCount (ch : Channel) : (doStartOutput s ch).seqCount = s.seqCount := by unfold doStartOutput; split_ifs <;> simp
@[simp] theorem doStartOutput_seq (ch : Channel) : (doStartOutput s ch).seq = s.seq := by unfold doStartOutput; split_ifs <;> simp
@[simp] theorem doStartOutput_stage (ch : Channel) : (doStartOutput s ch).stage = s.stage := by unfold doStartOutput; split_ifs <;> simp
@[simp] theorem doStartOutput_initDone (ch : Channel) : (doStartOutput s ch).initDone = s.initDone := by unfold doStartOutput; split_ifs <;> simp
@[simp] theorem doStartOutput_underrun (ch : Channel) : (doStartOutput s ch).underrun = s.underrun := by unfold doStartOutput; split_ifs <;> simp
@[simp] theorem doStartOutput_dacOut0 (ch : Channel) : (doStartOutput s ch).dacOut0 = s.dacOut0 := by unfold doStartOutput; split_ifs <;> simp
@[simp] theorem doStartOutput_dacOut1 (ch : Channel) : (doStartOutput s ch).dacOut1 = s.dacOut1 := by unfold doStartOutput; split_ifs <;> simp
@[simp] theorem doStartOutput_trace (ch : Channel) : (doStartOutput s ch).trace = s.trace := by unfold doStartOutput; split_ifs <;> simp
@[simp] theorem doStartOutput_schedule (ch : Channel) : (doStartOutput s ch).schedule = s.schedule := by unfold doStartOutput; split_ifs <;> simp
@[simp] theorem doStartOutput_epoch (ch : Channel) : (doStartOutput s ch).epoch = s.epoch := by unfold doStartOutput; split_ifs <;> simp
@[simp] theorem doStartOutput_readData (ch : Channel) : (doStartOutput s ch).readData = s.readData := by unfold doStartOutput; split_ifs <;> simp

/-! doStopOutput -/

@[simp] theorem doStopOutput_cfg : (doStopOutput s).cfg = s.cfg := rfl
@[simp] theorem doStopOutput_channel : (doStopOutput s).channel = s.channel := rfl
@[simp] theorem doStopOutput_seqCount : (doStopOutput s).seqCount = s.seqCount := rfl
@[simp] theorem doStopOutput_seq : (doStopOutput s).seq = s.seq := rfl
@[simp] theorem doStopOutput_stage : (doStopOutput s).stage = s.stage := rfl
@[simp] theorem doStopOutput_mem : (doStopOutput s).mem = s.mem := rfl
@[simp] theorem doStopOutput_initDone : (doStopOutput s).initDone = s.initDone := rfl
@[simp] theorem doStopOutput_done : (doStopOutput s).done = s.done := rfl
@[simp] theorem doStopOutput_underrun : (doStopOutput s).underrun = s.underrun := rfl
@[simp] theorem doStopOutput_dacOut0 : (doStopOutput s).dacOut0 = s.dacOut0 := rfl
@[simp] theorem doStopOutput_dacOut1 : (doStopOutput s).dacOut1 = s.dacOut1 := rfl
@[simp] theorem doStopOutput_faults : (doStopOutput s).faults = s.faults := rfl
@[simp] theorem doStopOutput_trace : (doStopOutput s).trace = s.trace := rfl
@[simp] theorem doStopOutput_toOutside : (doStopOutput s).toOutside = s.toOutside := rfl

/-! doIsRunning -/

@[simp] theorem doIsRunning_cfg : (doIsRunning s).cfg = s.cfg := rfl
@[simp] theorem doIsRunning_running : (doIsRunning s).running = s.running := rfl
@[simp] theorem doIsRunning_channel : (doIsRunning s).channel = s.channel := rfl
@[simp] theorem doIsRunning_seqState : (doIsRunning s).seqState = s.seqState := rfl
@[simp] theorem doIsRunning_stepIndex : (doIsRunning s).stepIndex = s.stepIndex := rfl
@[simp] theorem doIsRunning_remain : (doIsRunning s).remain = s.remain := rfl
@[simp] theorem doIsRunning_phase : (doIsRunning s).phase = s.phase := rfl
@[simp] theorem doIsRunning_seqCount : (doIsRunning s).seqCount = s.seqCount := rfl
@[simp] theorem doIsRunning_seq : (doIsRunning s).seq = s.seq := rfl
@[simp] theorem doIsRunning_stage : (doIsRunning s).stage = s.stage := rfl
@[simp] theorem doIsRunning_mem : (doIsRunning s).mem = s.mem := rfl
@[simp] theorem doIsRunning_dmaPos : (doIsRunning s).dmaPos = s.dmaPos := rfl
@[simp] theorem doIsRunning_pending : (doIsRunning s).pending = s.pending := rfl
@[simp] theorem doIsRunning_lastHalf : (doIsRunning s).lastHalf = s.lastHalf := rfl
@[simp] theorem doIsRunning_initDone : (doIsRunning s).initDone = s.initDone := rfl
@[simp] theorem doIsRunning_done : (doIsRunning s).done = s.done := rfl
@[simp] theorem doIsRunning_underrun : (doIsRunning s).underrun = s.underrun := rfl
@[simp] theorem doIsRunning_dacOut0 : (doIsRunning s).dacOut0 = s.dacOut0 := rfl
@[simp] theorem doIsRunning_dacOut1 : (doIsRunning s).dacOut1 = s.dacOut1 := rfl
@[simp] theorem doIsRunning_faults : (doIsRunning s).faults = s.faults := rfl
@[simp] theorem doIsRunning_trace : (doIsRunning s).trace = s.trace := rfl
@[simp] theorem doIsRunning_toOutside : (doIsRunning s).toOutside = s.toOutside := rfl

/-! doIllegal -/

@[simp] theorem doIllegal_cfg (opc : Byte) : (doIllegal s opc).cfg = s.cfg := rfl
@[simp] theorem doIllegal_running (opc : Byte) : (doIllegal s opc).running = s.running := rfl
@[simp] theorem doIllegal_channel (opc : Byte) : (doIllegal s opc).channel = s.channel := rfl
@[simp] theorem doIllegal_seqState (opc : Byte) : (doIllegal s opc).seqState = s.seqState := rfl
@[simp] theorem doIllegal_stepIndex (opc : Byte) : (doIllegal s opc).stepIndex = s.stepIndex := rfl
@[simp] theorem doIllegal_remain (opc : Byte) : (doIllegal s opc).remain = s.remain := rfl
@[simp] theorem doIllegal_phase (opc : Byte) : (doIllegal s opc).phase = s.phase := rfl
@[simp] theorem doIllegal_seqCount (opc : Byte) : (doIllegal s opc).seqCount = s.seqCount := rfl
@[simp] theorem doIllegal_seq (opc : Byte) : (doIllegal s opc).seq = s.seq := rfl
@[simp] theorem doIllegal_stage (opc : Byte) : (doIllegal s opc).stage = s.stage := rfl
@[simp] theorem doIllegal_mem (opc : Byte) : (doIllegal s opc).mem = s.mem := rfl
@[simp] theorem doIllegal_dmaPos (opc : Byte) : (doIllegal s opc).dmaPos = s.dmaPos := rfl
@[simp] theorem doIllegal_pending (opc : Byte) : (doIllegal s opc).pending = s.pending := rfl
@[simp] theorem doIllegal_lastHalf (opc : Byte) : (doIllegal s opc).lastHalf = s.lastHalf := rfl
@[simp] theorem doIllegal_initDone (opc : Byte) : (doIllegal s opc).initDone = s.initDone := rfl
@[simp] theorem doIllegal_done (opc : Byte) : (doIllegal s opc).done = s.done := rfl
@[simp] theorem doIllegal_underrun (opc : Byte) : (doIllegal s opc).underrun = s.underrun := rfl
@[simp] theorem doIllegal_dacOut0 (opc : Byte) : (doIllegal s opc).dacOut0 = s.dacOut0 := rfl
@[simp] theorem doIllegal_dacOut1 (opc : Byte) : (doIllegal s opc).dacOut1 = s.dacOut1 := rfl
@[simp] theorem doIllegal_faults (opc : Byte) : (doIllegal s opc).faults = s.faults := rfl
@[simp] theorem doIllegal_trace (opc : Byte) : (doIllegal s opc).trace = s.trace := rfl
@[simp] theorem doIllegal_toOutside (opc : Byte) : (doIllegal s opc).toOutside = s.toOutside := rfl

/-! executeCommand -/

@[simp] theorem executeCommand_cfg (v : Word) : (executeCommand s v).cfg = s.cfg := by unfold executeCommand; split <;> simp
@[simp] theorem executeCommand_stage (v : Word) : (executeCommand s v).stage = s.stage := by unfold executeCommand; split <;> simp
@[simp] theorem executeCommand_dacOut0 (v : Word) : (executeCommand s v).dacOut0 = s.dacOut0 := by unfold executeCommand; split <;> simp
@[simp] theorem executeCommand_dacOut1 (v : Word) : (executeCommand s v).dacOut1 = s.dacOut1 := by unfold executeCommand; split <;> simp
@[simp] theorem executeCommand_trace (v : Word) : (executeCommand s v).trace = s.trace := by unfold executeCommand; split <;> simp
@[simp] theorem executeCommand_schedule (v : Word) : (executeCommand s v).schedule = s.schedule := by unfold executeCommand; split <;> simp
@[simp] theorem executeCommand_epoch (v : Word) : (executeCommand s v).epoch = s.epoch := by unfold executeCommand; split <;> simp
@[simp] theorem executeCommand_readData (v : Word) : (executeCommand s v).readData = s.readData := by unfold executeCommand; split <;> simp

/-! memWrite -/

@[simp] theorem memWrite_cfg (addr : Nat) (v : Word) : (memWrite s addr v).cfg = s.cfg := by unfold memWrite; split_ifs <;> simp
@[simp] theorem memWrite_dacOut0 (addr : Nat) (v : Word) : (memWrite s addr v).dacOut0 = s.dacOut0 := by unfold memWrite; split_ifs <;> simp
@[simp] theorem memWrite_dacOut1 (addr : Nat) (v : Word) : (memWrite s addr v).dacOut1 = s.dacOut1 := by unfold memWrite; split_ifs <;> simp
@[simp] theorem memWrite_trace (addr : Nat) (v : Word) : (memWrite s addr v).trace = s.trace := by unfold memWrite; split_ifs <;> simp
@[simp] theorem memWrite_schedule (addr : Nat) (v : Word) : (memWrite s addr v).schedule = s.schedule := by unfold memWrite; split_ifs <;> simp
@[simp] theorem memWrite_epoch (addr : Nat) (v : Word) : (memWrite s addr v).epoch = s.epoch := by unfold memWrite; split_ifs <;> simp
@[simp] theorem memWrite_readData (addr : Nat) (v : Word) : (memWrite s addr v).readData = s.readData := by unfold memWrite; split_ifs <;> simp

/-! A command word that decodes executes as the instruction it decodes to. -/

theorem executeCommand_of_decode (v : Word) (i : Instr) (h : decode (.cmd v) = .ok i) : exec i s = .next (executeCommand s v) := by
  have hd : (decodeCmd v).toInstr = .ok i := h
  unfold executeCommand
  cases hc : decodeCmd v <;> rw [hc] at hd <;> first | (injection hd with hd; subst hd; rfl) | exact absurd hd (by simp [Command.toInstr])

/-! Memory stays canonical. -/

theorem handler_mem_wf (e : DmaEvent) (hw : Memory.wf s.mem) : Memory.wf (handler s e).mem := by
  unfold handler
  split
  · exact hw
  · exact refill_mem_wf _ _ hw

theorem executeCommand_mem_wf (v : Word) (hw : Memory.wf s.mem) : Memory.wf (executeCommand s v).mem := by
  unfold executeCommand
  split
  · unfold doInit
    split <;> simp only [initEffects, State.ok_mem, State.raise_mem] <;> split <;> exact hw
  · unfold doSetSequence
    split_ifs <;> exact hw
  · unfold doStartOutput
    split_ifs <;> first | exact hw | exact refill_mem_wf _ _ (refill_mem_wf _ _ hw)
  · exact hw
  · exact hw
  · exact hw

/-! What a next state of `exec` is, instruction by instruction. -/

theorem serviceEvent_next (e : DmaEvent) (t : State) (h : serviceEvent s e = .next t) :
    s.pending.head? = some e ∧ t = handler s.takeEvent e := by
  unfold serviceEvent at h
  split at h
  · exact absurd h (by simp)
  · rename_i head rest hp
    split at h
    · rename_i he
      subst he
      injection h with h
      exact ⟨by simp [hp], h.symm⟩
    · exact absurd h (by simp)

/-- What an instruction that answers a next state did. -/
theorem exec_next (i : Instr) (t : State) (h : exec i s = .next t) :
    match i with
    | .init => t = doInit s
    | .setSequence n => t = doSetSequence s n.toNat
    | .startOutput ch => t = doStartOutput s ch
    | .stopOutput => t = doStopOutput s
    | .isRunning => t = doIsRunning s
    | .evTick => s.running = true ∧ t = tick s
    | .evHt => s.pending.head? = some .ht ∧ t = handler s.takeEvent .ht
    | .evTc => s.pending.head? = some .tc ∧ t = handler s.takeEvent .tc
    | .rd size off => accessOk s.cfg .rd size off.toNat = true ∧ t = { s with readData := memRead s off.toNat size }
    | .wr size off data => accessOk s.cfg .wr size off.toNat = true ∧ t = memWrite s off.toNat data := by
  cases i with
  | init => exact (Host.Outcome.next.inj h).symm
  | setSequence n => exact (Host.Outcome.next.inj h).symm
  | startOutput ch => exact (Host.Outcome.next.inj h).symm
  | stopOutput => exact (Host.Outcome.next.inj h).symm
  | isRunning => exact (Host.Outcome.next.inj h).symm
  | evTick =>
    simp only [exec, execEvTick] at h
    split at h
    · exact ⟨‹_›, (Host.Outcome.next.inj h).symm⟩
    · exact absurd h (by simp)
  | evHt => exact serviceEvent_next s .ht t h
  | evTc => exact serviceEvent_next s .tc t h
  | rd size off =>
    simp only [exec, execRd] at h
    split at h
    · exact ⟨‹_›, (Host.Outcome.next.inj h).symm⟩
    · exact absurd h (by simp)
  | wr size off data =>
    simp only [exec, execWr] at h
    split at h
    · exact ⟨‹_›, (Host.Outcome.next.inj h).symm⟩
    · exact absurd h (by simp)

/-- What a raw transaction that answers a next state did: it executed the instruction it decodes to, or it was an illegal
command word. -/
theorem runPacket_next (p : Packet) (t : State) (h : runPacket p s = .next t) :
    (∃ i, decode p = .ok i ∧ exec i s = .next t) ∨
      ∃ opc, decode p = .error (.illegalCommand opc) ∧ t = doIllegal s opc := by
  unfold runPacket at h
  split at h
  · exact .inl ⟨_, ‹_›, h⟩
  · exact .inr ⟨_, ‹_›, (Host.Outcome.next.inj h).symm⟩
  · exact absurd h (by simp)
  · exact absurd h (by simp)

/-- The block's own moves, seen through one disjunction: every next state of a step from a state `s` with the slot taken off
(`r`) is one of these. -/
theorem step_next (t : State) (h : step s = .next t) :
    (s.schedule = [] ∧ t = s) ∨
    ∃ slot rest, s.schedule = slot :: rest ∧
      ((∃ r ok, slot = .draw r ok ∧ t = State.fixOutcome { s with schedule := rest } r ok) ∨
        (slot = .reset ∧ t = State.powerOnReset { s with schedule := rest }) ∨
        (∃ p opc, slot = .packet p ∧ decode p = .error (.illegalCommand opc) ∧ t = doIllegal { s with schedule := rest } opc) ∨
        (∃ p i, slot = .packet p ∧ decode p = .ok i ∧ exec i { s with schedule := rest } = .next t) ∨
        ∃ e, slot = .isr ∧ s.pending.head? = some e ∧ t = handler (State.takeEvent { s with schedule := rest }) e) := by
  unfold step at h
  split at h
  · exact .inl ⟨‹_›, (Host.Outcome.next.inj h).symm⟩
  · rename_i slot rest hs
    refine .inr ⟨slot, rest, hs, ?_⟩
    cases slot with
    | packet p =>
      rcases runPacket_next _ p t h with ⟨i, hd, he⟩ | ⟨opc, hd, ht⟩
      · exact .inr (.inr (.inr (.inl ⟨p, i, rfl, hd, he⟩)))
      · exact .inr (.inr (.inl ⟨p, opc, rfl, hd, ht⟩))
    | draw r ok => exact .inl ⟨r, ok, rfl, (Host.Outcome.next.inj h).symm⟩
    | reset => exact .inr (.inl ⟨rfl, (Host.Outcome.next.inj h).symm⟩)
    | isr =>
      simp only [runSlot, runIsr] at h
      split at h
      · exact absurd h (by simp)
      · rename_i e es hp
        have hp' : s.pending = e :: es := hp
        refine .inr (.inr (.inr (.inr ⟨e, rfl, by simp [hp'], ?_⟩)))
        cases e with
        | ht => exact (serviceEvent_next _ .ht t h).2
        | tc => exact (serviceEvent_next _ .tc t h).2

end Sys2Proof.Machine
end

