-- ==== Sys2Proof/Laws/Cause.lean ====
section
/-! SUPPORT. What caused a step: every next state is the effect of one named operation of the block, with the slot that
presented it. The lemma to cite for a statement about every step. -/

namespace Sys2Proof.Machine

/-- What a step that took `slot` off the schedule (the state without it is `r`) can have done to answer `t`. -/
inductive Cause (slot : Slot) (r t : State) : Prop where
  | draw (q : CollabRequest) (ok : Bool) (hs : slot = .draw q ok) (ht : t = r.fixOutcome q ok)
  | reset (hs : slot = .reset) (ht : t = r.powerOnReset)
  | command (v : Word) (hs : slot = .packet (.cmd v) ∨ presents slot (.wr .word 0x00000#18 v)) (ht : t = executeCommand r v)
  | tick (hs : presents slot .evTick) (hr : r.running = true) (ht : t = tick r)
  | service (e : DmaEvent) (hs : slot = .isr ∨ presents slot (instrOfEvent e)) (hh : r.pending.head? = some e)
      (ht : t = handler r.takeEvent e)
  | read (size : AccessSize) (off : Offset) (hs : presents slot (.rd size off))
      (ht : t = { r with readData := memRead r off.toNat size })
  | write (off : Offset) (v : Word) (hs : presents slot (.wr .word off v)) (h0 : off.toNat ≠ 0)
      (ht : t = memWrite r off.toNat v)

/-- A packet that decodes to a command is a command word. -/
theorem cmd_of_decode (p : Packet) (i : Instr) (h : decode p = .ok i)
    (hi : i = .init ∨ (∃ n, i = .setSequence n) ∨ (∃ ch, i = .startOutput ch) ∨ i = .stopOutput ∨ i = .isRunning) :
    ∃ v, p = .cmd v := by
  cases p with
  | cmd v => exact ⟨v, rfl⟩
  | evt c =>
    simp only [decode, decodeEvt] at h
    split_ifs at h <;> first | simp at h; done | (simp only [Except.ok.injEq] at h; subst h; simp at hi)
  | bus dir sz o d =>
    simp only [decode, decodeBus] at h
    split at h
    · simp at h
    · split at h
      · simp at h
      · cases dir <;> simp only [Except.ok.injEq] at h <;> subst h <;> simp at hi

/-- Only a command word decodes to an illegal command. -/
theorem cmd_of_illegal (p : Packet) (opc : Byte) (h : decode p = .error (.illegalCommand opc)) :
    ∃ v, p = .cmd v ∧ decodeCmd v = .illegal opc := by
  cases p with
  | cmd v =>
    refine ⟨v, rfl, ?_⟩
    have h' : (decodeCmd v).toInstr = .error (.illegalCommand opc) := h
    cases hc : decodeCmd v with
    | illegal x =>
      rw [hc] at h'
      injection h' with h'
      injection h' with h'
      rw [h']
    | _ => simp [hc, Command.toInstr] at h'
  | evt c =>
    simp only [decode, decodeEvt] at h
    split_ifs at h
    simp at h
  | bus dir sz o d =>
    simp only [decode, decodeBus] at h
    split at h
    · simp at h
    · split at h
      · simp at h
      · cases dir <;> simp at h

/-- Every step that answers a next state idles, or took a slot off the schedule with one of the causes. -/
theorem step_cause (s t : State) (h : step s = .next t) :
    (s.schedule = [] ∧ t = s) ∨ ∃ slot rest, s.schedule = slot :: rest ∧ Cause slot { s with schedule := rest } t := by
  rcases step_next s t h with ⟨a, rfl⟩ | ⟨slot, rest, hs, ⟨q, ok, a, b⟩ | ⟨a, b⟩ | ⟨p, opc, a, hd, b⟩ | ⟨p, i, a, hd, he⟩ | ⟨e, a, hh, b⟩⟩
  · exact .inl ⟨a, rfl⟩
  · exact .inr ⟨slot, rest, hs, .draw q ok a b⟩
  · exact .inr ⟨slot, rest, hs, .reset a b⟩
  · obtain ⟨v, hv, hc⟩ := cmd_of_illegal p opc hd
    exact .inr ⟨slot, rest, hs, .command v (.inl (by rw [a, hv])) (by rw [b]; simp only [executeCommand, hc])⟩
  · refine .inr ⟨slot, rest, hs, ?_⟩
    have hcmd : (∃ v, p = .cmd v) → Cause slot { s with schedule := rest } t := by
      rintro ⟨v, rfl⟩
      rw [executeCommand_of_decode _ v i hd] at he
      exact .command v (.inl a) (Host.Outcome.next.inj he).symm
    have hx := exec_next _ i t he
    cases i with
    | init => exact hcmd (cmd_of_decode p _ hd (by simp))
    | setSequence n => exact hcmd (cmd_of_decode p _ hd (by simp))
    | startOutput ch => exact hcmd (cmd_of_decode p _ hd (by simp))
    | stopOutput => exact hcmd (cmd_of_decode p _ hd (by simp))
    | isRunning => exact hcmd (cmd_of_decode p _ hd (by simp))
    | evTick => exact .tick ⟨p, a, hd⟩ hx.1 hx.2
    | evHt => exact .service .ht (.inr ⟨p, a, hd⟩) hx.1 hx.2
    | evTc => exact .service .tc (.inr ⟨p, a, hd⟩) hx.1 hx.2
    | rd size off => exact .read size off ⟨p, a, hd⟩ hx.2
    | wr size off d =>
      obtain ⟨hacc, ht⟩ := hx
      cases size with
      | half => simp [accessOk] at hacc
      | word =>
        by_cases h0 : off.toNat = 0
        · have : off = 0#18 := BitVec.eq_of_toNat_eq (by simpa using h0)
          subst this
          exact .command d (.inr ⟨p, a, hd⟩) ht
        · exact .write off d ⟨p, a, hd⟩ h0 ht
  · exact .inr ⟨slot, rest, hs, .service e (.inl a) hh b⟩

end Sys2Proof.Machine
end

