-- ==== Sys2Proof/Laws/Controller.lean ====
section
/-! SUPPORT. What each controller command does, case by case in the order of its checks, and the result words as numbers. -/

namespace Sys2Proof.Machine

variable (s : State)

/-! SET_SEQUENCE (44_controller.md R264). -/

theorem doSetSequence_whenRunning (n : Nat) (h : s.running = true) :
    doSetSequence s n = s.raise opcSetSequence .alreadyRunning := by
  simp [doSetSequence, h]

theorem doSetSequence_accepted (n : Nat) (h : s.running = false) (hok : configureOk s n = true) :
    doSetSequence s n = (configureCommit s n).ok opcSetSequence false := by
  simp [doSetSequence, h, hok]

theorem doSetSequence_rejected (n : Nat) (h : s.running = false) (hok : configureOk s n = false) :
    doSetSequence s n = s.raise opcSetSequence .configurationRejected := by
  simp [doSetSequence, h, hok]

/-! START_OUTPUT (44_controller.md R270, R271). -/

theorem doStartOutput_whenRunning (ch : Channel) (h : s.running = true) :
    doStartOutput s ch = s.raise opcStartOutput .alreadyRunning := by
  simp [doStartOutput, h]

theorem doStartOutput_notConfigured (ch : Channel) (h : s.running = false) (hq : s.seqState = .notConfigured) :
    doStartOutput s ch = s.raise opcStartOutput .notConfigured := by
  simp [doStartOutput, h, hq]

theorem doStartOutput_notInit (ch : Channel) (h : s.running = false) (hq : s.seqState ≠ .notConfigured)
    (hi : s.initDone = false) : doStartOutput s ch = s.raise opcStartOutput .hardwareStartFailure := by
  simp [doStartOutput, h, hq, hi]

theorem doStartOutput_failed (ch : Channel) (h : s.running = false) (hq : s.seqState ≠ .notConfigured)
    (hi : s.initDone = true) (ho : startOutcome s = false) :
    doStartOutput s ch = (startDraws s).raise opcStartOutput .hardwareStartFailure := by
  simp [doStartOutput, h, hq, hi, ho]

theorem doStartOutput_started (ch : Channel) (h : s.running = false) (hq : s.seqState ≠ .notConfigured)
    (hi : s.initDone = true) (ho : startOutcome s = true) :
    doStartOutput s ch = (startCommit (startDraws s) ch).ok opcStartOutput false := by
  simp [doStartOutput, h, hq, hi, ho]

/-- Everything `START_OUTPUT` can do, in the order of its checks. -/
theorem doStartOutput_cases (ch : Channel) :
    (s.running = true ∧ doStartOutput s ch = s.raise opcStartOutput .alreadyRunning) ∨
    (s.running = false ∧ s.seqState = .notConfigured ∧ doStartOutput s ch = s.raise opcStartOutput .notConfigured) ∨
    (s.running = false ∧ s.seqState ≠ .notConfigured ∧ s.initDone = false ∧
      doStartOutput s ch = s.raise opcStartOutput .hardwareStartFailure) ∨
    (s.running = false ∧ s.seqState ≠ .notConfigured ∧ s.initDone = true ∧ startOutcome s = false ∧
      doStartOutput s ch = (startDraws s).raise opcStartOutput .hardwareStartFailure) ∨
    (s.running = false ∧ s.seqState ≠ .notConfigured ∧ s.initDone = true ∧ startOutcome s = true ∧
      doStartOutput s ch = (startCommit (startDraws s) ch).ok opcStartOutput false) := by
  cases h : s.running
  · by_cases hq : s.seqState = .notConfigured
    · exact .inr (.inl ⟨rfl, hq, doStartOutput_notConfigured s ch h hq⟩)
    · cases hi : s.initDone
      · exact .inr (.inr (.inl ⟨rfl, hq, rfl, doStartOutput_notInit s ch h hq hi⟩))
      · cases ho : startOutcome s
        · exact .inr (.inr (.inr (.inl ⟨rfl, hq, rfl, rfl, doStartOutput_failed s ch h hq hi ho⟩)))
        · exact .inr (.inr (.inr (.inr ⟨rfl, hq, rfl, rfl, doStartOutput_started s ch h hq hi ho⟩)))
  · exact .inl ⟨rfl, doStartOutput_whenRunning s ch h⟩

/-! INIT (44_controller.md R261). -/

theorem doInit_ok (h : (initEffects s).initDone = true) : doInit s = (initEffects s).ok opcInit false := by
  simp [doInit, h]

theorem doInit_failed (h : (initEffects s).initDone = false) :
    doInit s = (initEffects s).raise opcInit .hardwareStartFailure := by
  simp [doInit, h]

/-! Indexed entries of the stored sequence. -/

theorem configureCommit_seqAt (n k : Nat) (hn : n ≤ s.cfg.maxSteps) :
    (configureCommit s n).seqAt k = if k < n then stepOfStage s.cfg (s.stageAt k) else StepRec.zero := by
  by_cases h : k < s.cfg.maxSteps
  · simp [State.seqAt, configureCommit, List.getD, h]
  · have hlen : ((configureCommit s n).seq)[k]? = none := by
      apply List.getElem?_eq_none
      simp [configureCommit]
      omega
    simp [State.seqAt, List.getD, hlen, show ¬ k < n by omega]

theorem replicate_zero_getD (m k : Nat) : (List.replicate m StepRec.zero).getD k StepRec.zero = StepRec.zero := by
  by_cases h : k < m <;> simp [List.getD, h]

/-! The result words (60_exceptions.md R300, R301). -/

theorem errWord_illegal (opc : Byte) : errWord opc .illegalCommand = (opc.setWidth 32 <<< 24) ||| 5#32 := by
  revert opc
  decide

end Sys2Proof.Machine
end

