-- ==== Sys2Proof/Laws/Legal.lean ====
section
/-! SUPPORT. Refill and stop on the invariants of Safety.lean: a refill keeps everything a running block's consistent state
holds, and adds no model fault. -/

namespace Sys2Proof.Machine

/-- A store of elements that lie in the buffer keeps the form of memory. -/
theorem memForm_storeSamples (s : State) (first : Nat) (codes : List Sample) (hm : memForm s)
    (hle : first + codes.length ≤ s.cfg.bufferSize) : memForm (s.storeSamples first codes) := by
  refine ⟨Memory.wf_store _ _ _ hm.1, ?_⟩
  intro x hx
  rcases Memory.mem_store _ _ _ _ hx with h | h
  · exact hm.2 x h
  · rw [flatMap_sampleBytes_length] at h
    simp only [bufAddr] at h
    exact ⟨by omega, show x.1 < bufBase + 2 * s.cfg.bufferSize by omega⟩

/-- What a consistent state of a running block holds, but for `PENDING` (INV7) and `RUNNING` itself. -/
abbrev Armed (s : State) : Prop :=
  s.cfg.wellFormed = true ∧ (s.seqState = .active ∨ s.seqState = .finished) ∧ 0 < s.seqCount.toNat ∧ inv4 s ∧ inv5 s ∧ inv6 s ∧
    inv8 s ∧ memForm s ∧ seqForm s ∧ rangeForm s

theorem Consistent.armed (s : State) (h : Consistent s) (hr : s.running = true) : Armed s := by
  obtain ⟨hc, ⟨h1, _, h3, h4, h5, h6, _, h8⟩, hm, hs, hg⟩ := h
  refine ⟨hc, h1 hr, ?_, h4, h5, h6, h8, hm, hs, hg⟩
  rcases Nat.eq_zero_or_pos s.seqCount.toNat with h | h
  · have hq := h3.2 (BitVec.eq_of_toNat_eq (by simpa using h))
    have := h1 hr
    simp [hq] at this
  · exact h

theorem Armed.consistent (s : State) (h : Armed s) (hr : s.running = true) (hp : s.pending.Nodup) : Consistent s := by
  obtain ⟨hc, hq, hn, h4, h5, h6, h8, hm, hs, hg⟩ := h
  refine ⟨hc, ⟨fun _ => hq, fun h => absurd (hr.symm.trans h) (by simp), ?_, h4, h5, h6, hp, h8⟩, hm, hs, hg⟩
  constructor
  · intro h
    simp [h] at hq
  · intro h
    simp [h] at hn

/-- The half filled keeps the form of memory and the range of the phase. -/
theorem filled_forms (s : State) (h : Half) (hc : s.cfg.paramsLegal = true) (hm : memForm s) (hr : rangeForm s) :
    memForm (filled s h) ∧ rangeForm (filled s h) :=
  ⟨memForm_storeSamples s _ _ hm (by simpa using halfBase_le s.cfg hc h), phaseAfter_lt _ hc _ _ _ hr.1, hr.2⟩

/-- The four ways a refill's `advance` can end in the Active state. -/
theorem Armed.remain_cases (s : State) (h : Armed s) (ha : s.seqState = .active) :
    s.cfg.half < s.remain.toNat ∨
      s.remain.toNat = s.cfg.half ∧ s.stepIndex.toNat + 1 < s.seqCount.toNat ∨
      s.remain.toNat = s.cfg.half ∧ ¬ s.stepIndex.toNat + 1 < s.seqCount.toNat ∧ s.cfg.endPolicy = .loop ∨
      s.remain.toNat = s.cfg.half ∧ ¬ s.stepIndex.toNat + 1 < s.seqCount.toNat ∧ s.cfg.endPolicy = .halt := by
  obtain ⟨_, _, _, h4, _⟩ := h
  obtain ⟨_, h0, _, hmod⟩ := h4 ha
  have := Nat.le_of_dvd h0 (Nat.dvd_of_mod_eq_zero hmod)
  by_cases hk : s.stepIndex.toNat + 1 < s.seqCount.toNat
  · omega
  · cases hp : s.cfg.endPolicy <;> simp <;> omega

/-- A refill of a running block's state keeps what the state holds, and adds no model fault. -/
theorem refill_armed (s : State) (h : Half) (hs : Armed s) : Armed (refill s h) ∧ (refill s h).faults = s.faults := by
  have hcases := Armed.remain_cases s hs
  obtain ⟨hc, hq, hn, h4, h5, h6, h8, hm, hq', hr⟩ := hs
  have hpl := (s.cfg.wellFormed_iff.1 hc).1
  obtain ⟨fm, fr⟩ := filled_forms s h hpl hm hr
  rcases hq with ha | hf
  · obtain ⟨hi, h0, hrem, hmod⟩ := h4 ha
    have notFin : ∀ {p : Prop}, s.seqState = .finished → p := fun hx => absurd (ha.symm.trans hx) (by simp)
    rcases hcases ha with c | ⟨c, d⟩ | ⟨c, d, e⟩ | ⟨c, d, e⟩
    · have hsub : (s.remain - BitVec.ofNat 64 s.cfg.half).toNat = s.remain.toNat - s.cfg.half := by
        have := s.remain.isLt
        simp only [BitVec.toNat_sub, BitVec.toNat_ofNat]
        omega
      rw [refill_stays s h ha c]
      refine ⟨⟨hc, .inl ha, hn, fun _ => ⟨hi, ?_, ?_, ?_⟩, fun hx => notFin hx, fun _ => h6 ha, h8, fm, hq', fr⟩, rfl⟩
      · show 0 < (s.remain - BitVec.ofNat 64 s.cfg.half).toNat
        omega
      · show (s.remain - BitVec.ofNat 64 s.cfg.half).toNat ≤ (s.seqAt s.stepIndex.toNat).samples.toNat
        omega
      · show (s.remain - BitVec.ofNat 64 s.cfg.half).toNat % s.cfg.half = 0
        rw [hsub, ← Nat.mod_eq_sub_mod (by omega)]
        exact hmod
    · have hsi : (s.stepIndex + 1#8).toNat = s.stepIndex.toNat + 1 := by
        have := s.seqCount.isLt
        simp only [BitVec.toNat_add, BitVec.toNat_ofNat]
        omega
      rw [refill_toNextStep s h ha c d]
      refine ⟨⟨hc, .inl ha, hn, fun _ => ⟨?_, (h8 _ d).1, ?_, (h8 _ d).2⟩, fun hx => notFin hx, fun _ => h6 ha, h8, fm, hq', fr⟩,
        rfl⟩
      · show (s.stepIndex + 1#8).toNat < s.seqCount.toNat
        omega
      · show (s.seqAt (s.stepIndex.toNat + 1)).samples.toNat ≤ (s.seqAt (s.stepIndex + 1#8).toNat).samples.toNat
        rw [hsi]
    · rw [refill_loops s h ha c d e]
      exact ⟨⟨hc, .inl ha, hn, fun _ => ⟨hn, (h8 0 hn).1, le_refl _, (h8 0 hn).2⟩, fun hx => notFin hx, fun _ => h6 ha, h8, fm, hq',
        fr⟩, rfl⟩
    · rw [refill_finishes s h ha c d e]
      refine ⟨⟨hc, .inr rfl, hn, fun hx => absurd hx (by simp), fun _ => ⟨rfl, ?_, e⟩, fun hx => absurd hx (by simp), h8, fm, hq',
        fr⟩, rfl⟩
      cases h <;> simp
  · rw [refill_of_finished s h hf]
    exact ⟨⟨hc, .inr hf, hn, h4, h5, h6, h8, memForm_storeSamples s _ _ hm (by simpa using halfBase_le s.cfg hpl h), hq', hr⟩,
      rfl⟩

/-- The stop leaves a consistent state, Idle (44_controller.md R262). -/
theorem stopEffects_consistent (s : State) (hc : s.cfg.wellFormed = true) (h8 : inv8 s) (hm : memForm s) (hs : seqForm s)
    (hr : rangeForm s) : Consistent s.stopEffects := by
  have hp := s.cfg.paramsLegal_iff.1 (s.cfg.wellFormed_iff.1 hc).1
  have hq : s.stopEffects.seqState = .notConfigured ∨ s.stopEffects.seqState = .configured := by
    simp only [State.stopEffects]
    split <;> simp
  refine ⟨hc, ⟨?_, fun _ => ⟨hq, rfl, rfl, rfl, rfl, rfl, rfl⟩, ?_, ?_, ?_, fun _ => rfl, List.nodup_nil, h8⟩, hm, hs, ?_⟩
  · intro hx
    simp [State.stopEffects] at hx
  · simp only [inv3, State.stopEffects]
    split <;> simp [*]
  · intro hx
    rcases hq with q | q <;> exact absurd (hx.symm.trans q) (by simp)
  · intro hx
    rcases hq with q | q <;> exact absurd (hx.symm.trans q) (by simp)
  · exact ⟨show 0 < 2 ^ s.cfg.phaseBits by positivity, show 0 < s.cfg.bufferSize by omega, hr.2.2⟩

end Sys2Proof.Machine
end

