-- ==== Sys2Proof/Laws/Outside.lean ====
section
/-! SUPPORT. What stands outside the block does not reach into it: no instruction reads the schedule or the data of an
earlier read, so the block's state with the configuration and the draws is all that an instruction acts on (10_state.md
R31). -/

namespace Sys2Proof.Machine

/-- The state with another schedule and other data of the last read. -/
def State.beside (s : State) (x : List Slot) (d : Word) : State := { s with schedule := x, readData := d }

variable (s : State) (x : List Slot) (d : Word)

theorem ite_beside (c : Prop) [Decidable c] (a b : State) :
    (if c then a else b).beside x d = if c then a.beside x d else b.beside x d := apply_ite (State.beside · x d) c a b

theorem advance_beside (n : Nat) : advance (s.beside x d) n = (advance s n).beside x d := by
  have hn : ∀ t : State, nextStep (t.beside x d) = (nextStep t).beside x d := by
    intro t
    unfold nextStep
    rw [ite_beside]
    obtain ⟨b, c, _, _, _, _, _⟩ := t
    rcases hp : c.endPolicy <;> simp only [State.beside, hp] <;> rfl
  unfold advance
  rw [ite_beside, ite_beside, ite_beside, ← hn]
  rfl

theorem refill_beside (h : Half) : refill (s.beside x d) h = (refill s h).beside x d := by
  have hn : ∀ t : State, noteLastHalf (t.beside x d) h = (noteLastHalf t h).beside x d := by
    intro t
    unfold noteLastHalf
    rw [ite_beside]
    rfl
  have ha : refillActive (s.beside x d) h = (refillActive s h).beside x d := by
    unfold refillActive currentParameters
    by_cases hq : s.seqState ≠ .active
    · rw [if_pos hq, if_pos (show (s.beside x d).seqState ≠ .active from hq)]
      rfl
    · rw [if_neg hq, if_neg (show ¬ (s.beside x d).seqState ≠ .active from hq)]
      show noteLastHalf (advance ((fillHalf s h _ _).beside x d) s.cfg.half) h = _
      rw [advance_beside, hn]
      rfl
  unfold refill
  rw [show (s.beside x d).seqState = s.seqState from rfl]
  cases s.seqState <;> first | exact ha | rfl

theorem handler_beside (e : DmaEvent) : handler (s.beside x d) e = (handler s e).beside x d := by
  unfold handler
  rw [ite_beside, refill_beside]
  rfl

theorem tick_beside : tick (s.beside x d) = (tick s).beside x d := by
  have hr : ∀ (t : State) (e : DmaEvent), (t.beside x d).raiseEvent e = (t.raiseEvent e).beside x d := by
    intro t e
    unfold State.raiseEvent
    rw [ite_beside]
    rfl
  have ht : ∀ t : State, tickEvents (t.beside x d) = (tickEvents t).beside x d := by
    intro t
    simp only [tickEvents, ite_beside, ← hr]
    rfl
  have hf : ∀ t : State, transfer (t.beside x d) = (transfer t).beside x d := by
    intro t
    unfold transfer State.emit
    rw [show (t.beside x d).channel = t.channel from rfl]
    cases t.channel <;> rfl
  have hu : noteUnderrun (s.beside x d) = (noteUnderrun s).beside x d := by
    unfold noteUnderrun
    rw [ite_beside]
    rfl
  unfold tick
  rw [hu, hf, ht]
  rfl

theorem doInit_beside : doInit (s.beside x d) = (doInit s).beside x d := by
  have he : initEffects (s.beside x d) = (initEffects s).beside x d := by
    unfold initEffects
    rw [show (if (s.beside x d).running then (s.beside x d).stopEffects else s.beside x d) =
      (if s.running then s.stopEffects else s).beside x d by rw [ite_beside]; rfl]
    rfl
  unfold doInit
  rw [ite_beside, he]
  rfl

theorem doSetSequence_beside (n : Nat) : doSetSequence (s.beside x d) n = (doSetSequence s n).beside x d := by
  unfold doSetSequence
  rw [ite_beside, ite_beside]
  rfl

theorem doStartOutput_beside (ch : Channel) : doStartOutput (s.beside x d) ch = (doStartOutput s ch).beside x d := by
  have hc : startCommit (startDraws (s.beside x d)) ch = (startCommit (startDraws s) ch).beside x d := by
    unfold startCommit prefill
    rw [show seqStart (startArm (startDraws (s.beside x d)) ch) = (seqStart (startArm (startDraws s) ch)).beside x d from rfl,
      refill_beside, refill_beside]
    rfl
  unfold doStartOutput
  rw [ite_beside, ite_beside, ite_beside, ite_beside, hc]
  rfl

theorem executeCommand_beside (v : Word) : executeCommand (s.beside x d) v = (executeCommand s v).beside x d := by
  unfold executeCommand
  split
  · exact doInit_beside s x d
  · exact doSetSequence_beside s x d _
  · exact doStartOutput_beside s x d _
  all_goals rfl

/-- The data of the last read after an instruction: those of a read of its own, or those there were. -/
def dataAfter (i : Instr) (t : State) (d : Word) : Word :=
  match i with
  | .rd _ _ => t.readData
  | _ => d

/-- An instruction on the same block beside another schedule and other read data: the same outcome, with the schedule left
as it was, and the same data of a read of its own. -/
theorem exec_beside (i : Instr) (t : State) (h : exec i s = .next t) :
    exec i (s.beside x d) = .next (t.beside x (dataAfter i t d)) := by
  have hx := exec_next s i t h
  cases i with
  | evTick =>
    show execEvTick _ = _
    rw [execEvTick, if_pos (show (s.beside x d).running = true from hx.1), tick_beside, hx.2]
    rfl
  | evHt =>
    obtain ⟨hh, rfl⟩ := hx
    obtain ⟨es, hp⟩ : ∃ es, s.pending = .ht :: es := by
      cases hp : s.pending <;> simp_all
    show serviceEvent _ _ = _
    rw [serviceEvent, show (s.beside x d).pending = .ht :: es from hp]
    show Host.Outcome.next (handler (s.takeEvent.beside x d) .ht) = _
    rw [handler_beside]
    rfl
  | evTc =>
    obtain ⟨hh, rfl⟩ := hx
    obtain ⟨es, hp⟩ : ∃ es, s.pending = .tc :: es := by
      cases hp : s.pending <;> simp_all
    show serviceEvent _ _ = _
    rw [serviceEvent, show (s.beside x d).pending = .tc :: es from hp]
    show Host.Outcome.next (handler (s.takeEvent.beside x d) .tc) = _
    rw [handler_beside]
    rfl
  | rd size off =>
    obtain ⟨ha, rfl⟩ := hx
    show execRd _ _ _ = _
    rw [execRd, if_pos (show accessOk (s.beside x d).cfg .rd size off.toNat = true from ha)]
    rfl
  | wr size off v =>
    obtain ⟨ha, rfl⟩ := hx
    show execWr _ _ _ _ = _
    rw [execWr, if_pos (show accessOk (s.beside x d).cfg .wr size off.toNat = true from ha)]
    unfold memWrite
    rw [ite_beside, ite_beside, executeCommand_beside]
    rfl
  | init => exact hx ▸ congrArg Host.Outcome.next (doInit_beside s x d)
  | setSequence n => exact hx ▸ congrArg Host.Outcome.next (doSetSequence_beside s x d _)
  | startOutput ch => exact hx ▸ congrArg Host.Outcome.next (doStartOutput_beside s x d _)
  | stopOutput => exact hx ▸ rfl
  | isRunning => exact hx ▸ rfl

end Sys2Proof.Machine
end

