-- ==== Sys2Proof/Laws/PerInstr.lean ====
section
/-! SUPPORT. The family `EncodingMatchesTable`: every encoded instruction is a packet of its row of spec/opcode_table.json,
by the row's mask and match (30_encoding.md R112, R116, R117). -/

namespace Sys2Proof.Laws

/-- The packet is a command word that the row's mask and match accept (30_encoding.md R112). -/
def EncodingMatchesTable.cmdRow (mask mtch : Word) : Packet → Prop
  | .cmd w => w &&& mask = mtch
  | .evt _ => False
  | .bus _ _ _ _ => False

/-- The packet is the event code of the row (30_encoding.md R116). -/
def EncodingMatchesTable.evtRow (code : BitVec 2) : Packet → Prop
  | .cmd _ => False
  | .evt c => c = code
  | .bus _ _ _ _ => False

/-- The packet is a host access of the row's direction, of 2 or 4 bytes (30_encoding.md R117). -/
def EncodingMatchesTable.busRow (dir : Direction) : Packet → Prop
  | .cmd _ => False
  | .evt _ => False
  | .bus d size _ _ => d = dir ∧ (size = 2#3 ∨ size = 4#3)

/-- The encoded instruction is a packet of its row. -/
def EncodingMatchesTable.Statement : Instr → Prop
  | .init => EncodingMatchesTable.cmdRow 0xFFFFFFFF#32 0x00000001#32 (encode .init)
  | .setSequence n => EncodingMatchesTable.cmdRow 0xFF00FFFF#32 0x00000002#32 (encode (.setSequence n))
  | .startOutput ch => EncodingMatchesTable.cmdRow 0xFFFFFEFF#32 0x00000003#32 (encode (.startOutput ch))
  | .stopOutput => EncodingMatchesTable.cmdRow 0xFFFFFFFF#32 0x00000004#32 (encode .stopOutput)
  | .isRunning => EncodingMatchesTable.cmdRow 0xFFFFFFFF#32 0x00000005#32 (encode .isRunning)
  | .evTick => EncodingMatchesTable.evtRow 0b00#2 (encode .evTick)
  | .evHt => EncodingMatchesTable.evtRow 0b01#2 (encode .evHt)
  | .evTc => EncodingMatchesTable.evtRow 0b10#2 (encode .evTc)
  | .rd size off => EncodingMatchesTable.busRow .rd (encode (.rd size off))
  | .wr size off data => EncodingMatchesTable.busRow .wr (encode (.wr size off data))

theorem setSequenceWord_masked (n : BitVec 8) : setSequenceWord n &&& 0xFF00FFFF#32 = 0x00000002#32 := by
  revert n
  decide

theorem startOutputWord_masked (ch : Channel) : startOutputWord ch &&& 0xFFFFFEFF#32 = 0x00000003#32 := by
  cases ch <;> decide

theorem EncodingMatchesTable.init : EncodingMatchesTable.Statement .init := rfl

theorem EncodingMatchesTable.setSequence (count : BitVec 8) : EncodingMatchesTable.Statement (.setSequence count) :=
  setSequenceWord_masked count

theorem EncodingMatchesTable.startOutput (ch : Channel) : EncodingMatchesTable.Statement (.startOutput ch) :=
  startOutputWord_masked ch

theorem EncodingMatchesTable.stopOutput : EncodingMatchesTable.Statement .stopOutput := rfl

theorem EncodingMatchesTable.isRunning : EncodingMatchesTable.Statement .isRunning := rfl

theorem EncodingMatchesTable.evTick : EncodingMatchesTable.Statement .evTick := rfl

theorem EncodingMatchesTable.evHt : EncodingMatchesTable.Statement .evHt := rfl

theorem EncodingMatchesTable.evTc : EncodingMatchesTable.Statement .evTc := rfl

theorem EncodingMatchesTable.rd (size : AccessSize) (offset : Offset) :
    EncodingMatchesTable.Statement (.rd size offset) := by cases size <;> exact ⟨rfl, by decide⟩

theorem EncodingMatchesTable.wr (size : AccessSize) (offset : Offset) (data : Word) :
    EncodingMatchesTable.Statement (.wr size offset data) := by cases size <;> exact ⟨rfl, by decide⟩

end Sys2Proof.Laws
end

