-- ==== Sys2Proof/Laws/Tick.lean ====
section
/-! SUPPORT. What one tick writes, field by field (42_buffer_refill.md R192 to R194). -/

namespace Sys2Proof.Machine

theorem raiseEvent_pending (s : State) (e : DmaEvent) :
    (s.raiseEvent e).pending = if e ∈ s.pending then s.pending else s.pending ++ [e] := by
  unfold State.raiseEvent
  simp only [List.contains_iff_mem]
  split <;> rfl

theorem noteUnderrun_bufAt (s : State) (j : Nat) : (noteUnderrun s).bufAt j = s.bufAt j := by
  simp [State.bufAt, State.byteAt]

theorem tick_trace (s : State) : (tick s).trace = s.trace ++ [(s.channel, dacCode s.cfg (s.bufAt s.dmaPos.toNat))] := by
  have h : (tick s).trace = (transfer (noteUnderrun s)).trace := by
    simp only [tick, tickEvents]
    split_ifs <;> simp
  rw [h]
  unfold transfer State.emit
  simp only [noteUnderrun_channel, noteUnderrun_cfg, noteUnderrun_dmaPos, noteUnderrun_bufAt]
  cases s.channel <;> simp

theorem tick_dacOut (s : State) (ch : Channel) :
    (tick s).dacOut ch = if ch = s.channel then dacCode s.cfg (s.bufAt s.dmaPos.toNat) else s.dacOut ch := by
  have h0 : (tick s).dacOut0 = (transfer (noteUnderrun s)).dacOut0 := by simp [tick]
  have h1 : (tick s).dacOut1 = (transfer (noteUnderrun s)).dacOut1 := by simp [tick]
  have h : (tick s).dacOut ch = (transfer (noteUnderrun s)).dacOut ch := by cases ch <;> simp [State.dacOut, h0, h1]
  rw [h]
  unfold transfer State.emit
  simp only [noteUnderrun_channel, noteUnderrun_cfg, noteUnderrun_dmaPos, noteUnderrun_bufAt]
  cases ch <;> cases s.channel <;> simp [State.dacOut]

theorem tick_underrun (s : State) : (tick s).underrun = (s.underrunAt s.dmaPos.toNat || s.underrun) := by
  have h : (tick s).underrun = (noteUnderrun s).underrun := by
    simp only [tick, tickEvents]
    split_ifs <;> simp [transfer]
  rw [h]
  unfold noteUnderrun
  split <;> simp [*]

theorem tick_faults (s : State) :
    (tick s).faults = if s.underrunAt s.dmaPos.toNat then s.faults.add .deadlineMiss else s.faults := by
  have h : (tick s).faults = (noteUnderrun s).faults := by
    simp only [tick, tickEvents]
    split_ifs <;> simp [transfer]
  rw [h]
  unfold noteUnderrun
  split <;> rfl

theorem tick_pending (s : State) :
    (tick s).pending =
      (tickEvents { s with pending := s.pending }).pending := by
  show (tickEvents (transfer (noteUnderrun s))).pending = _
  have hp : (transfer (noteUnderrun s)).pending = s.pending := by simp [transfer]
  have hc : (transfer (noteUnderrun s)).cfg = s.cfg := by simp [transfer]
  have hd : (transfer (noteUnderrun s)).dmaPos = s.dmaPos := by simp [transfer]
  simp only [tickEvents, hc, hd]
  split_ifs <;> simp only [raiseEvent_pending, hp]

end Sys2Proof.Machine
end

