-- ==== Sys2Proof/Laws/Runs.lean ====
section
/-! SUPPORT. Runs and fair runs (70_reset_and_hazards.md R357): a stretch of a run is what `step` does with its slots
scheduled, a fair run that stays Running sends codes without end, and every state has a fair run. -/

namespace Sys2Proof.Machine

/-! A stretch of a run, scheduled. -/

theorem exec_readData (s t : State) (i : Instr) (h : exec i s = .next t) : dataAfter i t s.readData = t.readData := by
  have hx := exec_next s i t h
  cases i with
  | evTick => rw [hx.2]; simp [dataAfter, tick]
  | evHt => rw [hx.2]; simp [dataAfter]
  | evTc => rw [hx.2]; simp [dataAfter]
  | rd size off => rfl
  | wr size off v => rw [hx.2]; simp [dataAfter]
  | _ => rw [show t = _ from hx]; simp [dataAfter]

/-- A slot does the same whatever is scheduled after it. -/
theorem step_slot (s t : State) (slot : Slot) (rest : List Slot) (h : step { s with schedule := [slot] } = .next t) :
    step { s with schedule := slot :: rest } = .next { t with schedule := rest } := by
  have hp : ∀ p, runPacket p { s with schedule := [] } = .next t →
      runPacket p { s with schedule := rest } = .next { t with schedule := rest } := by
    intro p hp
    rcases runPacket_next _ p t hp with ⟨i, hd, he⟩ | ⟨opc, hd, rfl⟩
    · have hb := exec_beside _ rest s.readData i t he
      rw [show s.readData = ({ s with schedule := [] } : State).readData from rfl, exec_readData _ t i he] at hb
      simp only [runPacket, hd]
      exact hb
    · simp only [runPacket, hd]
      rfl
  cases slot with
  | packet p => exact hp p h
  | draw r ok => cases h; rfl
  | reset => cases h; rfl
  | isr =>
    have h : runIsr { s with schedule := [] } = .next t := h
    show runIsr { s with schedule := rest } = _
    unfold runIsr at h ⊢
    cases hq : s.pending with
    | nil => simp [hq] at h
    | cons e es =>
      simp only [hq] at h ⊢
      exact hp _ h

theorem IsRun.core_run (states : Nat → State) (slots : Nat → Slot) (h : IsRun states slots) (k n : Nat) :
    Sys2Proof.core.run k { states n with schedule := (List.range k).map fun j => slots (n + j) } =
      .next { states (n + k) with schedule := [] } := by
  induction k generalizing n with
  | zero => rfl
  | succ k ih =>
    have hs := step_slot _ _ _ ((List.range k).map fun j => slots (n + 1 + j)) (h n)
    have hl : ((List.range (k + 1)).map fun j => slots (n + j)) = slots n :: (List.range k).map fun j => slots (n + 1 + j) := by
      rw [List.range_succ_eq_map, List.map_cons, List.map_map]
      simp only [Function.comp_def, Nat.add_zero, Nat.succ_eq_add_one, Nat.add_assoc, Nat.add_comm 1]
    have hrun : ∀ u t : State, step u = .next t → Sys2Proof.core.run (k + 1) u = Sys2Proof.core.run k t := by
      intro u t hu
      simp only [Host.Core.run, show Sys2Proof.core.step u = .next t from hu]
    rw [hl, hrun _ _ hs, Nat.add_comm k 1, ← Nat.add_assoc]
    exact ih (n + 1)

/-! A fair run that stays Running. -/

/-- Only a power-on reset, which ends the run, makes `TRACE` shorter. -/
theorem step_trace_length (s t : State) (h : step s = .next t) (hr : t.running = true) : s.trace.length ≤ t.trace.length := by
  rcases step_cause s t h with ⟨_, rfl⟩ | ⟨slot, rest, _, hc⟩
  · exact le_refl _
  · cases hc with
    | draw q ok hs ht => rw [ht]; exact le_refl _
    | reset hs ht => rw [ht] at hr; exact absurd hr (by simp)
    | command v hs ht => rw [ht]; simp
    | tick hs hr ht => rw [ht, tick_trace]; simp
    | service e hs hh ht => rw [ht]; simp
    | read size off hs ht => rw [ht]
    | write off v hs h0 ht => rw [ht]; simp

/-- What the slot of a tick does. -/
theorem step_of_tick (s t : State) (slot : Slot) (hi : slotInstr slot s = some .evTick)
    (h : step { s with schedule := [slot] } = .next t) : t = tick { s with schedule := [] } := by
  cases slot with
  | packet p =>
    have hd : decode p = .ok .evTick := by
      simp only [slotInstr] at hi
      cases hd : decode p with
      | ok i => rw [hd] at hi; cases hi; rfl
      | error e => rw [hd] at hi; cases hi
    have h : runPacket p { s with schedule := [] } = .next t := h
    simp only [runPacket, hd] at h
    exact (exec_next _ .evTick t h).2
  | isr =>
    simp only [slotInstr, Option.map_eq_some_iff] at hi
    obtain ⟨e, _, he⟩ := hi
    cases e <;> cases he
  | _ => cases hi

/-- A fair run that stays Running sends codes without end (70_reset_and_hazards.md R357, 42_buffer_refill.md R192). -/
theorem FairRun.trace_grows (states : Nat → State) (slots : Nat → Slot) (h : FairRun states slots) (n : Nat)
    (hr : ∀ m, n ≤ m → (states m).running = true) (k : Nat) :
    ∃ m, n ≤ m ∧ (states n).trace.length + k ≤ (states m).trace.length := by
  have mono : ∀ a j, n ≤ a → (states a).trace.length ≤ (states (a + j)).trace.length := by
    intro a j ha
    induction j with
    | zero => exact le_refl _
    | succ j ih => exact ih.trans (step_trace_length { states (a + j) with schedule := [slots (a + j)] } _ (h.1 (a + j)) (hr _ (by omega)))
  induction k with
  | zero => exact ⟨n, le_refl _, le_refl _⟩
  | succ k ih =>
    obtain ⟨a, ha, hk⟩ := ih
    obtain ⟨m, hm, ht | hf⟩ := h.2.1 a (hr a ha)
    · have hs := step_of_tick _ _ _ ht (h.1 m)
      have ham := mono a (m - a) ha
      rw [Nat.add_sub_cancel' hm] at ham
      refine ⟨m + 1, by omega, ?_⟩
      rw [hs, tick_trace, List.length_append, List.length_singleton]
      show _ ≤ (states m).trace.length + 1
      omega
    · exact absurd (hr m (by omega)) (by simp [hf])

/-! Every state has a fair run: the ISR services first, then the PACER ticks, and an Idle host asks. -/

/-- The slot of that policy. -/
def turn (s : State) : Slot :=
  match s.pending with
  | _ :: _ => .isr
  | [] => if s.running then tickSlot else .packet (.cmd 0x00000005#32)

/-- The state after it. -/
def afterTurn (s : State) : State :=
  match s.pending with
  | e :: _ => handler { s with schedule := [] }.takeEvent e
  | [] => if s.running then tick { s with schedule := [] } else doIsRunning { s with schedule := [] }

/-- The ISR's turn services the head of `PENDING`. -/
theorem runIsr_of_pending (s : State) (e : DmaEvent) (es : List DmaEvent) (hp : s.pending = e :: es) :
    runIsr s = .next (handler s.takeEvent e) := by
  have hs : serviceEvent s e = .next (handler s.takeEvent e) := by simp only [serviceEvent, hp, if_true]
  simp only [runIsr, hp]
  cases e <;> exact hs

theorem step_turn (s : State) : step { s with schedule := [turn s] } = .next (afterTurn s) := by
  unfold turn afterTurn
  cases hp : s.pending with
  | cons e es => exact runIsr_of_pending { s with schedule := [] } e es hp
  | nil =>
    cases hr : s.running
    · rfl
    · exact if_pos (show ({ s with schedule := [] } : State).running = true from hr)

/-- The states of the policy's run. -/
def turnStates (s : State) : Nat → State
  | 0 => s
  | n + 1 => afterTurn (turnStates s n)

/-- A service takes its event off `PENDING`. -/
theorem afterTurn_pending (s : State) (e : DmaEvent) (es : List DmaEvent) (hp : s.pending = e :: es) :
    (afterTurn s).pending.length ≤ es.length := by
  simp only [afterTurn, hp, handler]
  split
  · simp [autoStop]
  · simp [hp]

/-- Every state has a fair run. -/
theorem exists_fairRun (s : State) : ∃ states slots, states 0 = s ∧ FairRun states slots := by
  have pacer : ∀ k n, (turnStates s n).pending.length ≤ k → (turnStates s n).running = true →
      ∃ m, n ≤ m ∧ (slotInstr (turn (turnStates s m)) (turnStates s m) = some .evTick ∨ (turnStates s m).running = false) := by
    intro k
    induction k with
    | zero =>
      intro n hk hr
      have hp : (turnStates s n).pending = [] := List.length_eq_zero_iff.1 (by omega)
      exact ⟨n, le_refl _, .inl (by simp only [turn, hp, hr]; rfl)⟩
    | succ k ih =>
      intro n hk hr
      cases hp : (turnStates s n).pending with
      | nil => exact ⟨n, le_refl _, .inl (by simp only [turn, hp, hr]; rfl)⟩
      | cons e es =>
        cases hr1 : (turnStates s (n + 1)).running with
        | false => exact ⟨n + 1, by omega, .inr hr1⟩
        | true =>
          have hl := afterTurn_pending _ e es hp
          rw [hp, List.length_cons] at hk
          obtain ⟨m, hm, h⟩ := ih (n + 1) (show (afterTurn _).pending.length ≤ k by omega) hr1
          exact ⟨m, by omega, h⟩
  refine ⟨turnStates s, fun n => turn (turnStates s n), rfl, fun n => step_turn _, fun n => pacer _ n (le_refl _), fun n hp => ?_⟩
  cases hq : (turnStates s n).pending with
  | nil => exact absurd hq hp
  | cons e es => exact ⟨n, le_refl _, .inl ⟨e, by simp [turn, slotInstr, hq]⟩⟩

end Sys2Proof.Machine
end

