-- ==== Sys2Proof/Tests/Slice0.lean ====
section
/-! SUPPORT. The model's own tests: expected values from spec/95_test_vectors.md and from the examples of the rules; words
written out from the tables of 30_encoding.md; and, for every statement with hypotheses, an input that meets them. -/

namespace Sys2Proof.Tests

open Sys2Proof.Machine

/-! Helpers. -/

/-- The next state of an outcome, if it is one. -/
def nextOf : Host.Outcome State Fault Refusal → Option State
  | .next t => some t
  | .fault _ => none
  | .refused _ => none

/-- A property of the next state; false where there is none. -/
def after (o : Host.Outcome State Fault Refusal) (p : State → Bool) : Bool := ((nextOf o).map p).getD false

/-- The mini block (95_test_vectors.md) after reset, with the two DAC codes 0 and every collaborator outcome fixed to one
value. -/
def miniReset (policy : EndPolicy) (ok : Bool) : State :=
  { State.initial (Config.mini policy) 0 with dacOut0 := 0#16, dacOut1 := 0#16, fixed := ⟨some ok, some ok, some ok⟩ }

/-- The stored step that `configure` makes of {f, a, d} (mini). -/
def miniStep (f a d : Word) : StepRec := stepOfStage (Config.mini .halt) ⟨f, a, d⟩

/-- The mini block, initialised, with a stored sequence of one step {250, 1.0, d}. -/
def miniConfigured (policy : EndPolicy) (d : Word) : State :=
  { miniReset policy true with
    initDone := true
    seqState := .configured
    seqCount := 1#8
    seq := [miniStep 250#32 0x00010000#32 d, StepRec.zero, StepRec.zero, StepRec.zero] }

/-- The mini block running a long step from the start (P6 after line 7): 32 samples, 8 of them prefilled. -/
def miniRunning : State := startCommit (miniConfigured .halt 8000#32) .ch0

/-- The elements of `BUF` (mini). -/
def bufOf (s : State) : List Nat := (List.range 8).map fun j => (s.bufAt j).toNat

/-! Configurations. -/

set_option maxRecDepth 4000 in
theorem test_reference_wellFormed : Config.reference.wellFormed = true := by decide

theorem test_mini_wellFormed : (Config.mini .halt).wellFormed = true ∧ (Config.mini .loop).wellFormed = true := by decide

/-- A block of L = 2, whose table is the four exact values 0, PEAK, 0, -PEAK of 40_sine_table.md R146. -/
def tiny : Config := { Config.mini .halt with tableLenLog2 := 2, phaseFracBits := 6, dacBits := 3, sine := [0, 3, 0, -3] }

/-- 40_sine_table.md R141, R146: sin 0, sin (pi / 2), sin pi, sin (3 pi / 2). -/
theorem test_tiny_meets_formula (c : Config) (hl : c.tableLenLog2 = 2) (hd : c.dacBits = 3) (hs : c.sine = [0, 3, 0, -3]) :
    c.SineMeetsFormula := by
  have hn : c.tableLen = 4 := by simp [Config.tableLen, hl]
  have hp : c.peak = 3 := by simp [Config.peak, hd]
  refine ⟨by rw [hn, hs]; rfl, fun i hi x hx => ?_⟩
  rw [hn] at hi
  rw [hn, hp] at hx
  have h1 : 2 * Real.pi / 4 = Real.pi / 2 := by ring
  have h2 : 2 * Real.pi * 2 / 4 = Real.pi := by ring
  have h3 : 2 * Real.pi * 3 / 4 = Real.pi / 2 + Real.pi := by ring
  interval_cases i <;> norm_num [h1, h2, h3, Real.sin_add_pi] at hx <;> subst hx <;> norm_num [sineAt, hs]

theorem test_tiny_legal : tiny.Legal := ⟨by decide, test_tiny_meets_formula _ rfl rfl rfl⟩

/-- 00_scope.md R12: B odd, L + F > 32, M > 240 are refused at construction; a legal block is built. -/
theorem test_build_refuses :
    Config.build { tiny with bufferSize := 7 } (test_tiny_meets_formula _ rfl rfl rfl) = none ∧
      Config.build { tiny with phaseFracBits := 31 } (test_tiny_meets_formula _ rfl rfl rfl) = none ∧
      Config.build { tiny with maxSteps := 241 } (test_tiny_meets_formula _ rfl rfl rfl) = none ∧
      Config.build tiny (test_tiny_meets_formula _ rfl rfl rfl) = some tiny := by decide

/-- 40_sine_table.md R141: a table that does not meet the formula makes no legal block. -/
theorem test_zero_table_not_legal : ¬ Config.Legal { tiny with sine := [0, 0, 0, 0] } := by
  rintro ⟨_, _, h⟩
  have h1 : 2 * Real.pi / 4 = Real.pi / 2 := by ring
  have := h 1 (by decide) 3 (by norm_num [Config.peak, Config.tableLen, tiny, h1])
  norm_num [sineAt] at this

/-- 40_sine_table.md R146, 95_test_vectors.md 2.1. -/
theorem test_sine_reference :
    sineAt Config.reference 1 = 50 ∧ sineAt Config.reference 63 = 2046 ∧ sineAt Config.reference 64 = 2047 ∧
      sineAt Config.reference 197 = -2032 ∧ sineAt Config.reference 255 = -50 := by decide

/-! Well-formed instructions: one ill-formed term for each check of 20_memory.md R82. -/

theorem test_wf_misaligned_word : Instr.wf (Config.mini .halt) (.rd .word 0x00006#18) = false := by decide
theorem test_wf_word_outside_window : Instr.wf (Config.mini .halt) (.rd .word 0x30000#18) = false := by decide
theorem test_wf_misaligned_half : Instr.wf (Config.mini .halt) (.rd .half 0x01001#18) = false := by decide
theorem test_wf_half_below_buf : Instr.wf (Config.mini .halt) (.rd .half 0x00FFE#18) = false := by decide
theorem test_wf_half_above_buf : Instr.wf (Config.mini .halt) (.rd .half 0x01010#18) = false := by decide
theorem test_wf_half_write : Instr.wf (Config.mini .halt) (.wr .half 0x01000#18 0#32) = false := by decide
theorem test_wf_misaligned_write : Instr.wf (Config.mini .halt) (.wr .word 0x00102#18 0#32) = false := by decide

theorem test_wf_accepts :
    Instr.wf (Config.mini .halt) (.rd .half 0x0100E#18) = true ∧ Instr.wf (Config.mini .halt) (.rd .word 0x2FFFC#18) = true ∧
      Instr.wf (Config.mini .halt) (.wr .word 0x00000#18 0#32) = true := by decide

/-! Decoding: one word of each row, written out from 30_encoding.md R112, R116 and R117. -/

theorem test_decode_init : decodeTableWord 32 0x00000001 = some .init := by decide
theorem test_decode_set_sequence : decodeTableWord 32 0x00FF0002 = some (.setSequence 255#8) := by decide
theorem test_decode_start_ch0 : decodeTableWord 32 0x00000003 = some (.startOutput .ch0) := by decide
theorem test_decode_start_ch1 : decodeTableWord 32 0x00000103 = some (.startOutput .ch1) := by decide
theorem test_decode_stop : decodeTableWord 32 0x00000004 = some .stopOutput := by decide
theorem test_decode_is_running : decodeTableWord 32 0x00000005 = some .isRunning := by decide
theorem test_decode_tick : decodeTableWord 8 0b00 = some .evTick := by decide
theorem test_decode_ht : decodeTableWord 8 0b01 = some .evHt := by decide
theorem test_decode_tc : decodeTableWord 8 0b10 = some .evTc := by decide
theorem test_decode_rd : decode (.bus .rd 4#3 0x0001C#18 0#32) = .ok (.rd .word 0x0001C#18) := by decide
theorem test_decode_rdh : decode (.bus .rd 2#3 0x01002#18 0#32) = .ok (.rd .half 0x01002#18) := by decide

theorem test_decode_wr : decode (.bus .wr 4#3 0x00108#18 0xFA#32) = .ok (.wr .word 0x00108#18 0xFA#32) := by decide

/-- 95_test_vectors.md 2.7: the illegal words, and the reserved event code. -/
theorem test_decode_illegal :
    decodeCmd 0x00000000#32 = .illegal 0x00#8 ∧ decodeCmd 0x00000006#32 = .illegal 0x06#8 ∧
      decodeCmd 0x000000FF#32 = .illegal 0xFF#8 ∧ decodeCmd 0x00000101#32 = .illegal 0x01#8 ∧
      decodeCmd 0x80000004#32 = .illegal 0x04#8 ∧ decode (.evt 0b11#2) = .error .reservedEvent ∧
      decode (.bus .rd 1#3 0x00000#18 0#32) = .error .badAccess := by decide

/-! Arithmetic. -/

/-- 95_test_vectors.md 2.2. -/
theorem test_phase_increment :
    phaseIncrement Config.reference 1000 = 4294967 ∧ phaseIncrement Config.reference 2000 = 8589935 ∧
      phaseIncrement Config.reference 1000000 = 0 ∧ phaseIncrement Config.reference 4294967295 = 4154500391 ∧
      phaseIncrement (Config.mini .halt) 3999 = 0 ∧ phaseIncrement (Config.mini .halt) 100 = 6 := by decide

/-- 95_test_vectors.md 2.3: floor scaling at half amplitude, clamping, wrap. -/
theorem test_next_sample :
    nextSample Config.reference 0#32 0xC0000000#32 0x00008000#32 = (1024#16, 0xC0000000#32) ∧
      nextSample Config.reference 0#32 0x40000000#32 0x00020000#32 = (4095#16, 0x40000000#32) ∧
      nextSample Config.reference 0#32 0xC0000000#32 0xFFFFFFFF#32 = (2048#16, 0xC0000000#32) ∧
      nextSample Config.reference 0x12345678#32 0x00418937#32 0x0000C000#32 = (2704#16, 0x1275DFAF#32) ∧
      nextSample Config.reference 0xFFFFFFFF#32 1#32 0x00010000#32 = (2048#16, 0#32) := by decide

/-- 95_test_vectors.md 2.4. -/
theorem test_duration_ok :
    durationOk Config.reference 250#32 = true ∧ durationOk Config.reference 300#32 = false ∧
      durationOk Config.reference 0#32 = false ∧ durationOk Config.reference 4294967250#32 = true ∧
      durationOk { Config.reference with sampleRate := 48000, bufferSize := 200 } 6250#32 = true ∧
      durationOk { Config.reference with sampleRate := 48000, bufferSize := 200 } 2083#32 = false ∧
      stepSamples { Config.reference with sampleRate := 48000, bufferSize := 200 } 6250#32 = 300#64 := by decide

/-! INIT (44_controller.md R261's example; 95_test_vectors.md 2.7). -/

theorem test_init_ok :
    after (exec .init (miniReset .halt true)) (fun t => t.result == 0x01000100#32 && t.statusWord == 0x00000010#32) = true := by
  decide

theorem test_init_fail :
    after (exec .init (miniReset .halt false)) (fun t => t.result == 0x01000004#32 && !t.initDone) = true := by decide

/-! SET_SEQUENCE (95_test_vectors.md E1, 2.5). -/

theorem test_set_sequence_commits :
    after (exec (.setSequence 1#8)
        { miniReset .halt true with stage := [⟨250#32, 0x00010000#32, 2000#32⟩, .zero, .zero, .zero] })
      (fun t => t.result == 0x02000100#32 && t.seqAt 0 == ⟨250#32, 0x00010000#32, 2000#32, 16#32, 8#64⟩ &&
        t.seqCount == 1#8) = true := by decide

theorem test_set_sequence_rejects :
    after (exec (.setSequence 2#8)
        { miniReset .halt true with stage := [⟨250#32, 0x00010000#32, 1000#32⟩, .zero, .zero, .zero] })
      (fun t => t.result == 0x02000001#32 && t.seqState == .notConfigured) = true := by decide

/-! START_OUTPUT (95_test_vectors.md P1 line 4, P3 line 6). -/

theorem test_start_one_step :
    after (exec (.startOutput .ch0) (miniConfigured .halt 2000#32))
      (fun t => t.result == 0x03000100#32 && t.statusWord == 0x0000081D#32 &&
        bufOf t == [177, 218, 245, 255, 245, 218, 177, 128]) = true := by decide

theorem test_start_three_steps :
    after (exec (.startOutput .ch1)
        { miniConfigured .halt 1000#32 with
          seqCount := 3#8
          seq := [miniStep 250#32 0x00010000#32 1000#32, miniStep 500#32 0x00008000#32 2000#32,
            miniStep 125#32 0x00020000#32 1000#32, .zero] })
      (fun t => t.statusWord == 0x0001001B#32 && t.phase == 192#32 && t.remain == 4#64 &&
        bufOf t == [177, 218, 245, 255, 173, 128, 83, 64]) = true := by decide

/-! STOP_OUTPUT and IS_RUNNING (44_controller.md R263, R275). -/

theorem test_stop :
    after (exec .stopOutput miniRunning) (fun t => t.result == 0x04000100#32 && t.statusWord == 0x00000014#32) = true := by
  decide

theorem test_is_running_while_running :
    after (exec .isRunning miniRunning) (fun t => t.result == 0x05010100#32) = true := by decide

theorem test_is_running_while_idle :
    after (exec .isRunning (miniReset .halt true)) (fun t => t.result == 0x05000100#32) = true := by decide

/-! EV_TICK (95_test_vectors.md 2.6). -/

theorem test_tick_raises_ht :
    after (exec .evTick { miniRunning with dmaPos := 3#16 })
      (fun t => t.dacOut0 == 255#16 && t.pending == [.ht] && t.dmaPos == 4#16 && !t.underrun) = true := by decide

theorem test_tick_underrun :
    after (exec .evTick { miniRunning with pending := [.ht, .tc] })
      (fun t => t.underrun && t.faults.deadlineMiss && t.pending == [.ht, .tc] && t.trace == [(.ch0, 177#16)]) = true := by
  decide

/-! EV_HT and EV_TC (95_test_vectors.md P6 line 14, P1 lines 7 and 10). -/

theorem test_ht_refills :
    after (exec .evHt { miniRunning with pending := [.ht, .tc], underrun := true })
      (fun t => bufOf t == [79, 38, 11, 1, 245, 218, 177, 128] && t.remain == 20#64 && t.statusWord == 0x00000359#32) = true := by
  decide

theorem test_ht_filler :
    after (exec .evHt { miniRunning with pending := [.ht], seqState := .finished, lastHalf := some .second })
      (fun t => bufOf t == [128, 128, 128, 128, 245, 218, 177, 128]) = true := by decide

theorem test_tc_auto_stops :
    after (exec .evTc { miniRunning with pending := [.tc], seqState := .finished, lastHalf := some .second })
      (fun t => !t.running && t.done && t.statusWord == 0x00000034#32) = true := by decide

/-- 43_step_sequencer.md R236 under LOOP: step 0 again, the phase kept (95_test_vectors.md 2.5, P5). -/
theorem test_tc_loops :
    after (exec .evTc { miniRunning with cfg := Config.mini .loop, pending := [.tc], remain := 4#64 })
      (fun t => t.seqState == .active && t.remain == 32#64 && t.phase == 192#32) = true := by decide

/-! RD and WR (95_test_vectors.md P2 lines 8 and 13, P4 line 17). -/

theorem test_rd_param0 :
    after (exec (.rd .word 0x0001C#18) State.reset) (fun t => t.readData == 0x100C1808#32) = true := by decide

theorem test_rd_buf_word :
    after (exec (.rd .word 0x01000#18) miniRunning) (fun t => t.readData == 0x00DA00B1#32) = true := by decide

theorem test_wr_illegal_command :
    after (exec (.wr .word 0x00000#18 0x00000101#32) State.reset) (fun t => t.result == 0x01000005#32) = true := by decide

theorem test_wr_stage :
    after (exec (.wr .word 0x00114#18 0x00008000#32) State.reset) (fun t => t.stageAt 1 == ⟨0#32, 0x00008000#32, 0#32⟩) = true := by
  decide

/-! The step. -/

/-- A placed command word is what the next step runs. -/
theorem test_fetch_word :
    after (step (State.reset.withFetchWord 32 0x00000005)) (fun t => t.result == 0x05000100#32 && t.schedule == []) = true := by
  decide

theorem test_fetch_tick : after (step (State.reset.withFetchWord 8 0)) (fun t => t.dmaPos == 1#16) = true := by decide

/-- An `isr` slot services the head of `PENDING` (42_buffer_refill.md R197). -/
theorem test_isr_slot :
    after (step { miniRunning with pending := [.tc, .ht], schedule := [.isr] }) (fun t => t.pending == [.ht]) = true := by decide

/-- The listing of P6, lines 4 and 5: a fixed outcome, then the command (30_encoding.md R118, R119). -/
theorem test_assemble :
    assemble (Config.mini .halt) [.draw .dmaStart false, .start 0, .tick 2, .isr] =
      some [.draw .dmaStart false, .packet (.bus .wr 4#3 0x00000#18 0x00000003#32), .packet (.evt 0#2), .packet (.evt 0#2),
        .isr] := by decide

/-- 30_encoding.md R119: operands out of range do not assemble. -/
theorem test_assemble_rejects :
    assemble (Config.mini .halt) [.setseq 300] = none ∧ assemble (Config.mini .halt) [.start 2] = none ∧
      assemble (Config.mini .halt) [.stage 4 0 0 0] = none ∧ assemble (Config.mini .halt) [.stage 0 4294967296 0 0] = none := by
  decide

/-! ### Witnesses

For every statement with hypotheses, a concrete input that meets all of them together; for a statement with several
clauses, one for each clause, at the ends of its range. -/

/-! States, all consistent, of the mini block (L = 4, F = 4, D = 8, B = 8, H = 4, M = 4). -/

/-- One step of 2000 us, so of 8 samples, stored; nothing running. -/
def wIdle : State := miniConfigured .halt 2000#32

/-- The first one after a run that left its buffer, `DONE` and `UNDERRUN` set. -/
def wAgain : State := { wIdle with mem := miniRunning.mem, done := true, underrun := true }

/-- Running, Active, with 24 samples left, and HT pending. -/
def wActive : State := { miniRunning with pending := [.ht], dmaPos := 4#16 }

/-- The same with HT's deadline past: the next tick reads the First half. -/
def wLate : State := { wActive with dmaPos := 0#16 }

/-- Running, Active, with the last H samples of its one step left, and HT pending. -/
def wLast : State := { wActive with remain := 4#64 }

/-- The same under LOOP. -/
def wLastLoop : State := { wLast with cfg := Config.mini .loop }

/-- The same with a second step to follow. -/
def wMore : State :=
  { wLast with seqCount := 2#8, seq := [miniStep 250#32 0x00010000#32 8000#32, miniStep 500#32 0x00010000#32 1000#32, .zero, .zero] }

/-- Running, Finished, the Second half holding the last samples, TC pending. -/
def wFinished : State :=
  { miniRunning with seqState := .finished, remain := 0#64, lastHalf := some .second, pending := [.tc], dmaPos := 0#16 }

theorem test_wIdle_consistent : Consistent wIdle := ⟨by decide, by decide, by decide, by decide, by decide⟩
theorem test_wAgain_consistent : Consistent wAgain := ⟨by decide, by decide, by decide, by decide, by decide⟩
theorem test_wActive_consistent : Consistent wActive := ⟨by decide, by decide, by decide, by decide, by decide⟩
theorem test_wLate_consistent : Consistent wLate := ⟨by decide, by decide, by decide, by decide, by decide⟩
theorem test_wLast_consistent : Consistent wLast := ⟨by decide, by decide, by decide, by decide, by decide⟩
theorem test_wLastLoop_consistent : Consistent wLastLoop := ⟨by decide, by decide, by decide, by decide, by decide⟩
theorem test_wMore_consistent : Consistent wMore := ⟨by decide, by decide, by decide, by decide, by decide⟩
theorem test_wFinished_consistent : Consistent wFinished := ⟨by decide, by decide, by decide, by decide, by decide⟩

/-! Encoding. -/

theorem witness_DecodeEncodeRoundTrip :
    (Config.mini .halt).paramsLegal = true ∧ Instr.wf (Config.mini .halt) (.rd .half 0x0100E#18) = true ∧
      Instr.wf (Config.mini .halt) (.wr .word 0x2FFFC#18 0xFFFFFFFF#32) = true := by decide

theorem witness_TableBitsRoundTrip :
    (Config.mini .halt).paramsLegal = true ∧ Instr.wf (Config.mini .halt) (.setSequence 255#8) = true ∧
      Instr.wf (Config.mini .halt) (.wr .word 0x00000#18 0x00000005#32) = true := by decide

theorem witness_CommandWordHasOneMeaning : decode (.cmd 0x00FF0002#32) = .ok (.setSequence 255#8) := by decide

theorem witness_ReservedEventRefused : ({ wIdle with schedule := [.packet (.evt 0b11#2)] } : State).schedule = .packet (.evt 0b11#2) :: [] :=
  rfl

theorem witness_PseudoInstructionsAssemble :
    (Config.mini .halt).paramsLegal = true ∧ (0 ≤ 255 ∧ 255 ≤ 255) ∧ 255 < 256 ∧ 1 < 2 ∧
      (0 < (Config.mini .halt).maxSteps ∧ 3 < (Config.mini .halt).maxSteps) ∧
      ((Config.mini .halt).maxSteps ≤ 4 ∧ (-(2 ^ 31) - 1 : Int) < -(2 ^ 31) ∧ (2 ^ 32 : Int) ≤ 2 ^ 32) := by decide

/-! The step. -/

theorem witness_StepRunsDecodedInstruction :
    ({ wIdle with schedule := [.packet (.cmd 0x00000005#32)] } : State).schedule = .packet (.cmd 0x00000005#32) :: [] ∧
      decode (.cmd 0x00000005#32) = .ok .isRunning := by decide

theorem witness_OtherSlotsOfTheSchedule :
    (({ wActive with schedule := [.isr] } : State).schedule = .isr :: [] ∧ wActive.pending = .ht :: []) ∧
      (({ wIdle with schedule := [.isr] } : State).schedule = .isr :: [] ∧ wIdle.pending = []) ∧
      ({ wIdle with schedule := [.draw .dmaStart false] } : State).schedule = .draw .dmaStart false :: [] ∧
      CollabRequest.timerInit ≠ .dmaStart ∧ wIdle.schedule = [] := by decide

theorem witness_ResetStateIsIdle : (Config.mini .halt).paramsLegal = true := by decide

theorem witness_PowerOnResetAtAnyTime : ({ wActive with schedule := [.reset] } : State).schedule = .reset :: [] := rfl

theorem witness_ResetStateLegal : (Config.mini .loop).wellFormed = true ∧ tiny.Legal := ⟨by decide, test_tiny_legal⟩

/-! Invariants and whole-machine rules: each step below answers a next state. -/

theorem witness_StepKeepsLegal :
    (∃ t, Consistent { wLast with schedule := [.isr] } ∧ step { wLast with schedule := [.isr] } = .next t) ∧
      (∃ t, Consistent { wIdle with schedule := [.packet (.cmd 0x00000103#32)] } ∧
        step { wIdle with schedule := [.packet (.cmd 0x00000103#32)] } = .next t) ∧
      ∃ t, Legal { wActive with cfg := tiny, schedule := [.isr] } ∧
        step { wActive with cfg := tiny, schedule := [.isr] } = .next t :=
  ⟨⟨_, test_wLast_consistent, rfl⟩, ⟨_, test_wIdle_consistent, rfl⟩,
    _, ⟨test_tiny_legal, by decide, by decide, by decide, by decide, by decide⟩, rfl⟩

theorem witness_StepKeepsConfiguration : ∃ t, step { wActive with schedule := [tickSlot] } = .next t := ⟨_, rfl⟩

theorem witness_StepKeepsMemoryCanonical :
    ∃ t, Memory.wf wActive.mem ∧ step { wActive with schedule := [.isr] } = .next t := ⟨_, by decide, rfl⟩

theorem witness_FaultsNeverRemoved :
    ∃ t, step { wActive with schedule := [.isr], faults := { FaultSet.empty with deadlineMiss := true } } = .next t ∧
      ([Slot.isr].head? ≠ some .reset) ∧ (FaultSet.has { FaultSet.empty with deadlineMiss := true } .deadlineMiss = true) :=
  ⟨_, rfl, by decide, by decide⟩

theorem witness_OnlyDeadlineMissOccurs :
    ∃ t, Consistent { wLate with schedule := [tickSlot] } ∧ onlyDeadlineMiss wLate.faults ∧
      step { wLate with schedule := [tickSlot] } = .next t ∧ t.faults.deadlineMiss = true :=
  ⟨_, test_wLate_consistent, by decide, rfl, by decide⟩

theorem witness_TraceGrowsOnlyByTick :
    ∃ t, step { wActive with schedule := [tickSlot] } = .next t ∧ t.trace.length = 1 := ⟨_, rfl, by decide⟩

theorem witness_ResultWrittenOnlyByCommands :
    ∃ t, step { wActive with schedule := [.packet (.bus .wr 4#3 0#18 0x00000005#32)] } = .next t ∧ t.result ≠ wActive.result :=
  ⟨_, rfl, by decide⟩

theorem witness_StageWrittenOnlyByHost :
    ∃ t, step { wActive with schedule := [.packet (.bus .wr 4#3 0x138#18 7#32)] } = .next t ∧ t.stage ≠ wActive.stage :=
  ⟨_, rfl, by decide⟩

theorem witness_SequenceFixedWhileRunning :
    ∃ t, step { wActive with schedule := [.packet (.cmd 0x00010002#32)] } = .next t ∧ wActive.running = true ∧
      t.running = true := ⟨_, rfl, by decide, by decide⟩

theorem witness_RunningEndsOnlyByStop :
    (∃ t, step { wFinished with schedule := [.isr] } = .next t ∧ wFinished.running = true ∧ t.running = false) ∧
      ∃ t, step { wActive with schedule := [.packet (.cmd 0x00000004#32)] } = .next t ∧ t.running = false :=
  ⟨⟨_, rfl, by decide, by decide⟩, _, rfl, by decide⟩

theorem witness_SequencerTransitionTable :
    (∃ t, Consistent { wActive with schedule := [.packet (.cmd 0x00000001#32)] } ∧
      step { wActive with schedule := [.packet (.cmd 0x00000001#32)] } = .next t ∧ t.seqState = .notConfigured) ∧
    (∃ t, Consistent { wFinished with schedule := [.isr] } ∧ step { wFinished with schedule := [.isr] } = .next t ∧
      t.seqState = .configured) ∧
    (∃ t, Consistent { wIdle with schedule := [.packet (.cmd 0x00000003#32)] } ∧
      step { wIdle with schedule := [.packet (.cmd 0x00000003#32)] } = .next t ∧ t.seqState = .finished) ∧
    ∃ t, Consistent { wLast with schedule := [.packet (.evt 0b01#2)] } ∧
      step { wLast with schedule := [.packet (.evt 0b01#2)] } = .next t ∧ t.seqState = .finished :=
  ⟨⟨_, test_wActive_consistent, rfl, by decide⟩, ⟨_, test_wFinished_consistent, rfl, by decide⟩, ⟨_, test_wIdle_consistent, rfl, by decide⟩,
    _, test_wLast_consistent, rfl, by decide⟩

theorem witness_LoopNeverAutoStops :
    ∃ t, Consistent { wLastLoop with schedule := [.isr] } ∧ wLastLoop.cfg.endPolicy = .loop ∧ wLastLoop.running = true ∧
      step { wLastLoop with schedule := [.isr] } = .next t :=
  ⟨_, test_wLastLoop_consistent, by decide, by decide, rfl⟩

/-! Arithmetic. -/

theorem witness_NextSampleInRange : (Config.mini .halt).wellFormed = true := by decide

theorem witness_SynthesisIsContinuous : (Config.mini .halt).paramsLegal = true ∧ 1 ≤ 1 ∧ 1 ≤ 4 ∧ 1 ≤ 4 ∧ 4 ≤ 4 := by decide

theorem witness_PhaseIncrementRule :
    (Config.mini .halt).paramsLegal = true ∧ (Config.mini .halt).sampleRate % 2 = 0 := by decide

theorem witness_PhaseIncrementWithinHalfUnit :
    (Config.mini .halt).paramsLegal = true ∧
      2 * (3992 * 2 ^ (Config.mini .halt).phaseBits) < (Config.mini .halt).sampleRate * (2 * 2 ^ (Config.mini .halt).phaseBits - 1) := by
  decide

theorem witness_DurationOkIsPositiveMultiple : (Config.mini .halt).paramsLegal = true := by decide

theorem witness_StepSamplesExact : (Config.mini .halt).paramsLegal = true ∧ durationOk (Config.mini .halt) 1000#32 = true := by
  decide

theorem witness_AmplitudeClamped :
    (0#32).toInt ≤ 0 ∧ 65536 ≤ (0x10000#32).toInt ∧ (0 < (1#32).toInt ∧ (1#32).toInt < 65536) ∧
      (0 < (0xFFFF#32).toInt ∧ (0xFFFF#32).toInt < 65536) := by decide

/-- A block with a table of four entries: 0, 1, 0, -1. -/
def wSine : Config :=
  { Config.mini .halt with tableLenLog2 := 2, dacBits := 2, sine := [0, 1, 0, -1] }

theorem witness_SineTableSymmetric : wSine.SineMeetsFormula ∧ 2 ≤ wSine.tableLenLog2 := by
  refine ⟨⟨by decide, ?_⟩, by decide⟩
  intro i hi x hx
  have hN : wSine.tableLen = 4 := by decide
  have hP : wSine.peak = 1 := by decide
  rw [hN] at hi
  rw [hN, hP] at hx
  interval_cases i
  · have h : x = 0 := by rw [hx]; simp
    subst h
    norm_num [sineAt, wSine]
  · have h : x = 1 := by
      rw [hx, show 2 * Real.pi * ((1 : ℕ) : ℝ) / ((4 : ℕ) : ℝ) = Real.pi / 2 by push_cast; ring, Real.sin_pi_div_two]
      norm_num
    subst h
    norm_num [sineAt, wSine]
  · have h : x = 0 := by
      rw [hx, show 2 * Real.pi * ((2 : ℕ) : ℝ) / ((4 : ℕ) : ℝ) = Real.pi by push_cast; ring, Real.sin_pi]
      norm_num
    subst h
    norm_num [sineAt, wSine]
  · have h : x = -1 := by
      rw [hx, show 2 * Real.pi * ((3 : ℕ) : ℝ) / ((4 : ℕ) : ℝ) = Real.pi / 2 + Real.pi by push_cast; ring, Real.sin_add_pi,
        Real.sin_pi_div_two]
      norm_num
    subst h
    norm_num [sineAt, wSine]

/-! Commands. -/

theorem witness_InitResetsAndDraws : wIdle.running = false ∧ wActive.running = true := by decide

/-- A count of 1 and the largest count, with valid staged steps. -/
theorem witness_SetSequenceCommits :
    (∀ n : BitVec 8, n = 1#8 ∨ n = 4#8 →
      let s := { wIdle with stage := List.replicate 4 ⟨250#32, 0x00010000#32, 1000#32⟩ }
      s.running = false ∧ 0 < n.toNat ∧ n.toNat ≤ s.cfg.maxSteps ∧
        ∀ k, k < n.toNat → durationOk s.cfg (s.stageAt k).dur = true) := by
  rintro n (rfl | rfl) <;> decide

theorem witness_SetSequenceRejects :
    wActive.running = true ∧ wIdle.running = false ∧ (0#8).toNat = 0 ∧ wIdle.cfg.maxSteps < (5#8).toNat ∧
      ∃ k, k < (1#8).toNat ∧ durationOk wIdle.cfg (wIdle.stageAt k).dur = false :=
  ⟨by decide, by decide, by decide, by decide, 0, by decide, by decide⟩

theorem witness_StartRejected :
    wActive.running = true ∧
      ((miniReset .halt true).running = false ∧ (miniReset .halt true).seqState = .notConfigured) ∧
      (let s := { wIdle with initDone := false }; s.running = false ∧ s.seqState ≠ .notConfigured ∧ s.initDone = false) ∧
      (let s := { wIdle with fixed := ⟨none, some true, some false⟩ }
       s.running = false ∧ s.seqState ≠ .notConfigured ∧ s.initDone = true ∧
        (s.outcome .dmaStart && (s.afterDraw .dmaStart).outcome .timerStart) = false) := by decide

/-- Idle, with a stored sequence of steps of these durations (a half of the buffer lasts 1000 us). -/
def wSteps (policy : EndPolicy) (ds : List Word) : State :=
  { miniConfigured policy 1000#32 with
    seqCount := BitVec.ofNat 8 ds.length
    seq := ds.map (miniStep 250#32 0x00010000#32) ++ List.replicate (4 - ds.length) .zero }

/-- The premises of `StartPrefillsAndRuns`. -/
abbrev canStart (s : State) : Prop :=
  Consistent s ∧ s.running = false ∧ s.seqState = .configured ∧ s.initDone = true ∧ s.outcome .dmaStart = true ∧
    (s.afterDraw .dmaStart).outcome .timerStart = true

theorem test_canStart (s : State) (h1 : s.cfg.wellFormed = true) (h2 : Inv s) (h3 : memForm s) (h4 : seqForm s)
    (h5 : rangeForm s)
    (h6 : s.running = false ∧ s.seqState = .configured ∧ s.initDone = true ∧ s.outcome .dmaStart = true ∧
      (s.afterDraw .dmaStart).outcome .timerStart = true) : canStart s := ⟨⟨h1, h2, h3, h4, h5⟩, h6⟩

/-- One input for each case of the cursor, at the least number of samples of its range. -/
theorem witness_StartPrefillsAndRuns :
    (canStart (wSteps .halt [3000#32]) ∧ canStart (wSteps .halt [2000#32, 1000#32]) ∧ canStart (wSteps .loop [2000#32]) ∧
      canStart (wSteps .halt [2000#32])) ∧
    (canStart (wSteps .halt [1000#32, 2000#32]) ∧ canStart (wSteps .halt [1000#32, 1000#32, 1000#32]) ∧
      canStart (wSteps .loop [1000#32, 1000#32]) ∧ canStart (wSteps .halt [1000#32, 1000#32])) ∧
    canStart (wSteps .loop [1000#32]) ∧ canStart (wSteps .halt [1000#32]) := by
  refine ⟨⟨?_, ?_, ?_, ?_⟩, ⟨?_, ?_, ?_, ?_⟩, ?_, ?_⟩ <;>
    exact test_canStart _ (by decide) (by decide) (by decide) (by decide) (by decide) (by decide)

/-- The cursor after a start: step 0 goes on (H of its 3H samples left, 8 phase advances of 16), and a sequence of H samples
is Finished with the First half (95_test_vectors.md P7, here on the mini block). -/
theorem test_start_cursor :
    cursorIs (startCommit (wSteps .halt [3000#32]) .ch0) .active 0 4 0x80#32 none ∧
      cursorIs (startCommit (wSteps .halt [1000#32]) .ch0) .finished 0 0 0x40#32 (some .first) := by decide

/-- Two blocks with the same stored sequence, the second after a run that left its buffer, `DONE` and `UNDERRUN` set. -/
theorem witness_StartDependsOnSequenceOnly :
    ∃ t1 t2, Consistent wIdle ∧ Consistent wAgain ∧ wIdle.cfg = wAgain.cfg ∧ wIdle.seq = wAgain.seq ∧ wIdle.seqCount = wAgain.seqCount ∧
      wIdle.running = false ∧ wAgain.running = false ∧ exec (.startOutput .ch1) wIdle = .next t1 ∧
      exec (.startOutput .ch1) wAgain = .next t2 ∧ t1.running = true ∧ t2.running = true :=
  ⟨_, _, test_wIdle_consistent, test_wAgain_consistent, by decide, by decide, by decide, by decide, by decide, rfl, rfl, by decide,
    by decide⟩

theorem witness_StopOutputAlwaysSucceeds : Consistent wIdle ∧ wIdle.running = false := ⟨test_wIdle_consistent, by decide⟩

theorem witness_IllegalCommandChangesOnlyResult :
    decodeCmd 0x00000101#32 = .illegal 0x01#8 ∧
      ({ wActive with schedule := [.packet (.cmd 0x00000101#32)] } : State).schedule = .packet (.cmd 0x00000101#32) :: [] := by
  decide

theorem witness_WriteToCmdExecutesCommand : decode (.cmd 0x00000103#32) = .ok (.startOutput .ch1) := by decide

/-! Events. -/

/-- At each end of each half: with nothing pending, with the event of the position's half pending, with the other. -/
theorem witness_TickTransfersOneElement :
    ∀ s ∈ [{ miniRunning with dmaPos := 0#16, pending := [.ht] }, { miniRunning with dmaPos := 3#16, pending := [] },
        { miniRunning with dmaPos := 3#16, pending := [.tc] }, { miniRunning with dmaPos := 3#16, pending := [.ht] },
        { miniRunning with dmaPos := 4#16, pending := [.ht] }, { miniRunning with dmaPos := 4#16, pending := [.tc] },
        { miniRunning with dmaPos := 7#16, pending := [] }, { miniRunning with dmaPos := 7#16, pending := [.ht, .tc] }],
      s.cfg.paramsLegal = true ∧ s.running = true := by decide

theorem witness_AgentStepsNeedEnabling :
    wIdle.running = false ∧ wIdle.pending = [] ∧ wFinished.pending.head? = some .tc ∧ wActive.pending.head? = some .ht := by
  decide

theorem witness_ServiceOfLastHalfAutoStops : wFinished.pending = .tc :: [] ∧ wFinished.lastHalf = some DmaEvent.tc.half := by
  decide

/-- The four clauses: the step goes on (more than H samples remain), the next step, LOOP, HALT. -/
theorem witness_ActiveServiceRefills :
    (Consistent wActive ∧ Consistent wMore ∧ Consistent wLastLoop ∧ Consistent wLast) ∧
    (∀ s ∈ [wActive, wMore, wLastLoop, wLast], s.pending = .ht :: [] ∧ s.seqState = .active) ∧
    wActive.cfg.half < wActive.remain.toNat ∧
    (wMore.remain.toNat = wMore.cfg.half ∧ wMore.stepIndex.toNat + 1 < wMore.seqCount.toNat) ∧
    (wLastLoop.remain.toNat = wLastLoop.cfg.half ∧ wLastLoop.stepIndex.toNat + 1 = wLastLoop.seqCount.toNat ∧
      wLastLoop.cfg.endPolicy = .loop) ∧
    (wLast.remain.toNat = wLast.cfg.half ∧ wLast.stepIndex.toNat + 1 = wLast.seqCount.toNat ∧ wLast.cfg.endPolicy = .halt) :=
  ⟨⟨test_wActive_consistent, test_wMore_consistent, test_wLastLoop_consistent, test_wLast_consistent⟩, by decide⟩

theorem witness_FinishedServiceFillsMidScale :
    let s := { wFinished with pending := [.ht] }
    s.pending = .ht :: [] ∧ s.seqState = .finished ∧ s.lastHalf ≠ some DmaEvent.ht.half := by decide

/-- No tick, the last tick in time, and the first one late, after HT and after TC. -/
theorem witness_DeadlineMissedExactlyPastDeadline :
    (∀ n ∈ [0, 4, 5],
      let s := { miniRunning with pending := [.ht], dmaPos := 4#16, schedule := List.replicate n tickSlot }
      s.cfg.paramsLegal = true ∧ s.running = true ∧ s.dmaPos.toNat = s.cfg.half ∧ s.underrun = false ∧
        s.faults.deadlineMiss = false ∧ n ≤ s.cfg.half + 1) ∧
    (let s := { miniRunning with pending := [.tc], dmaPos := 0#16, schedule := List.replicate 5 tickSlot }
     s.running = true ∧ s.dmaPos.toNat = 0 ∧ 5 ≤ s.cfg.half + 1) := by decide

theorem witness_TicksPlayOneHalf :
    (let s := { miniRunning with schedule := List.replicate miniRunning.cfg.half tickSlot }
     s.cfg.paramsLegal = true ∧ s.running = true ∧ s.pending = [] ∧ s.dmaPos.toNat = halfBase s.cfg (DmaEvent.half .ht)) ∧
    (let s := { miniRunning with dmaPos := 4#16, schedule := List.replicate miniRunning.cfg.half tickSlot }
     s.pending = [] ∧ s.dmaPos.toNat = halfBase s.cfg (DmaEvent.half .tc)) := by decide

/-! Host accesses. -/

/-- The number that an 18-bit offset holds. -/
abbrev at18 (n : Nat) : Nat := (BitVec.ofNat 18 n).toNat

theorem witness_StatusAndParameterFields : (Config.mini .loop).paramsLegal = true := by decide

theorem witness_ReadStageAndReserved :
    wIdle.cfg.paramsLegal = true ∧ (0 < wIdle.cfg.maxSteps ∧ 3 < wIdle.cfg.maxSteps) ∧
    ∀ n ∈ [0x0002C, 0x000FC, 0x00140, 0x00FFC, 0x01010, 0x2FFFC],
      at18 n % 4 = 0 ∧ at18 n < 0x30000 ∧
      (0x02C ≤ at18 n ∧ at18 n < 0x100 ∨ 0x100 + 16 * wIdle.cfg.maxSteps ≤ at18 n ∧ at18 n < 0x1000 ∨
        0x1000 + 2 * wIdle.cfg.bufferSize ≤ at18 n) := by decide

theorem witness_ReadBuffer :
    wActive.cfg.paramsLegal = true ∧ 0 < wActive.cfg.bufferSize ∧ 7 < wActive.cfg.bufferSize ∧ 6 % 2 = 0 := by decide

theorem witness_HostAccessAdmittedExactly :
    wIdle.cfg.paramsLegal = true ∧
    (∀ n ∈ [0x00000, 0x2FFFC], at18 n % 4 = 0 ∧ at18 n ≤ 0x2FFFF) ∧
    (∀ n ∈ [0x00002, 0x30000], ¬(at18 n % 4 = 0 ∧ at18 n ≤ 0x2FFFF)) ∧
    (∀ n ∈ [0x01000, 0x0100E],
      at18 n % 2 = 0 ∧ 0x1000 ≤ at18 n ∧ at18 n ≤ 0x1000 + 2 * wIdle.cfg.bufferSize - 1) ∧
    (∀ n ∈ [0x00FFE, 0x01001, 0x01010],
      ¬(at18 n % 2 = 0 ∧ 0x1000 ≤ at18 n ∧ at18 n ≤ 0x1000 + 2 * wIdle.cfg.bufferSize - 1)) ∧
    (1#3 ≠ 2#3 ∧ 1#3 ≠ 4#3) := by decide

theorem witness_WriteStageSlot : Consistent wActive ∧ 0 < wActive.cfg.maxSteps ∧ 3 < wActive.cfg.maxSteps :=
  ⟨test_wActive_consistent, by decide⟩

theorem witness_OtherWritesIgnored :
    ∀ n ∈ [0x00004, 0x000FC, 0x00140, 0x01000, 0x2FFFC],
      at18 n % 4 = 0 ∧ at18 n < 0x30000 ∧ at18 n ≠ 0 ∧
        (at18 n < 0x100 ∨ 0x100 + 16 * wActive.cfg.maxSteps ≤ at18 n) := by decide

theorem witness_HostAddressesOfTheWindow : (0x00000#18 : Offset).toNat < 0x30000 ∧ (0x2FFFF#18 : Offset).toNat < 0x30000 := by
  decide

end Sys2Proof.Tests
end

section
/-! The statements of 00_scope.md: a step runs the decoded instruction, and no step but a power-on reset removes a model
fault. The second goes operation by operation: `FaultsKept` is transitive, the operations that record a fault only add a
name, and all others leave `FAULTS` as it is. -/

namespace Sys2Proof.Machine

/-! A step through its slot. -/

theorem step_of_schedule (s : State) (slot : Slot) (rest : List Slot) (hs : s.schedule = slot :: rest) :
    step s = runSlot slot { s with schedule := rest } := by
  simp only [step, hs]

theorem runPacket_of_decode (s : State) (p : Packet) (i : Instr) (hd : decode p = .ok i) : runPacket p s = exec i s := by
  simp only [runPacket, hd]

/-- Settles O8: the slot taken off is a packet, and a packet that decodes runs as its instruction. -/
theorem stepRunsDecodedInstruction : Obligations.StepRunsDecodedInstruction := by
  intro s p rest i hs hd
  calc step s = runPacket p { s with schedule := rest } := step_of_schedule s (.packet p) rest hs
    _ = exec i { s with schedule := rest } := runPacket_of_decode _ p i hd

/-! Model faults that stay recorded (00_scope.md R16). -/

/-- Every model fault recorded in `s` is recorded in `t`. -/
def FaultsKept (s t : State) : Prop := ∀ e, s.faults.has e = true → t.faults.has e = true

theorem FaultsKept.of_eq {s t : State} (h : t.faults = s.faults) : FaultsKept s t := fun _ he => by rwa [h]

theorem FaultsKept.trans {s t u : State} (hst : FaultsKept s t) (htu : FaultsKept t u) : FaultsKept s u :=
  fun e he => htu e (hst e he)

theorem FaultsKept.addFault (s : State) (e : ModelFault) : FaultsKept s (s.addFault e) :=
  fun e' => FaultSet.has_add_mono s.faults e e'

/-! The operations that can record a fault: the sequencer's and the refill engine's, START_OUTPUT through its prefill, and
the tick. -/

theorem FaultsKept.advance (s : State) (n : Nat) : FaultsKept s (advance s n) := by
  unfold Machine.advance
  split_ifs
  · exact .addFault s _
  · exact .addFault s _
  · exact .of_eq (nextStep_faults _)
  · exact .of_eq rfl

theorem FaultsKept.refillActive (s : State) (h : Half) : FaultsKept s (refillActive s h) := by
  unfold Machine.refillActive
  split
  · next inc amp _ =>
    have hfill : FaultsKept s (fillHalf s h inc amp) := .of_eq (fillHalf_faults s h inc amp)
    exact (hfill.trans (.advance _ _)).trans (.of_eq (noteLastHalf_faults _ h))
  · exact .addFault s _

theorem FaultsKept.refill (s : State) (h : Half) : FaultsKept s (refill s h) := by
  unfold Machine.refill
  split
  · exact .refillActive s h
  · exact .of_eq (refillFinished_faults s h)
  · exact .addFault s _
  · exact .addFault s _

theorem FaultsKept.handler (s : State) (e : DmaEvent) : FaultsKept s (handler s e) := by
  unfold Machine.handler
  split
  · exact .of_eq (autoStop_faults s)
  · exact .refill s _

theorem FaultsKept.startCommit (s : State) (ch : Channel) : FaultsKept s (startCommit s ch) := by
  have hstart : FaultsKept s (seqStart (startArm s ch)) := .of_eq (by simp)
  have hprefill : FaultsKept s (prefill (seqStart (startArm s ch))) := (hstart.trans (.refill _ .first)).trans (.refill _ .second)
  exact hprefill.trans (.of_eq rfl)

theorem FaultsKept.doStartOutput (s : State) (ch : Channel) : FaultsKept s (doStartOutput s ch) := by
  have hdraws : FaultsKept s (startDraws s) := .of_eq (startDraws_faults s)
  unfold Machine.doStartOutput
  split_ifs
  · exact .of_eq (State.raise_faults ..)
  · exact .of_eq (State.raise_faults ..)
  · exact .of_eq (State.raise_faults ..)
  · exact (hdraws.trans (.startCommit _ ch)).trans (.of_eq (State.ok_faults ..))
  · exact hdraws.trans (.of_eq (State.raise_faults ..))

theorem FaultsKept.executeCommand (s : State) (v : Word) : FaultsKept s (executeCommand s v) := by
  unfold Machine.executeCommand
  split
  · exact .of_eq (doInit_faults s)
  · exact .of_eq (doSetSequence_faults s _)
  · exact .doStartOutput s _
  · exact .of_eq (doStopOutput_faults s)
  · exact .of_eq (doIsRunning_faults s)
  · exact .of_eq (doIllegal_faults s _)

theorem FaultsKept.memWrite (s : State) (addr : Nat) (v : Word) : FaultsKept s (memWrite s addr v) := by
  unfold Machine.memWrite
  split_ifs
  · exact .executeCommand s v
  · exact .of_eq rfl
  · exact .of_eq rfl

theorem FaultsKept.tick (s : State) : FaultsKept s (tick s) := by
  intro e he
  rw [tick_faults]
  split
  · exact FaultSet.has_add_mono _ _ _ he
  · exact he

/-- Of all the causes of a step, only the power-on reset can remove a fault. -/
theorem Cause.faultsKept {slot : Slot} {r t : State} (hc : Cause slot r t) (hslot : slot ≠ .reset) : FaultsKept r t := by
  cases hc with
  | draw q ok _ ht => exact ht ▸ .of_eq (State.fixOutcome_faults r q ok)
  | reset hs _ => exact absurd hs hslot
  | command v _ ht => exact ht ▸ .executeCommand r v
  | tick _ _ ht => exact ht ▸ .tick r
  | service e _ _ ht =>
    have htake : FaultsKept r r.takeEvent := .of_eq (State.takeEvent_faults r)
    exact ht ▸ htake.trans (.handler _ e)
  | read size off _ ht => exact ht ▸ .of_eq rfl
  | write off v _ _ ht => exact ht ▸ .memWrite r _ v

/-- Settles O16: a step idles or has a cause, and no cause but the reset removes a fault. -/
theorem faultsNeverRemoved : Obligations.FaultsNeverRemoved := by
  intro s t e h hreset he
  rcases step_cause s t h with ⟨_, rfl⟩ | ⟨slot, rest, hs, hc⟩
  · exact he
  · have hslot : slot ≠ .reset := fun hr => hreset (by simp [hs, hr])
    exact hc.faultsKept hslot e he

end Sys2Proof.Machine
end

section
/-! The statements of 10_state.md on single fields: which steps can write the configuration, the memory, `TRACE` and `STAGE`.
Each goes through the causes of a step: what a cause makes of the field, then the step. -/

namespace Sys2Proof.Machine

/-! The configuration (10_state.md R30). -/

theorem Cause.cfg_eq {slot : Slot} {r t : State} (hcause : Cause slot r t) : t.cfg = r.cfg := by
  cases hcause with
  | draw q ok _ ht => exact ht ▸ State.fixOutcome_cfg r q ok
  | reset _ ht => exact ht ▸ State.powerOnReset_cfg r
  | command v _ ht => exact ht ▸ executeCommand_cfg r v
  | tick _ _ ht => exact ht ▸ tick_cfg r
  | service e _ _ ht => exact ht ▸ handler_cfg r.takeEvent e
  | read size off _ ht => exact ht ▸ rfl
  | write off v _ _ ht => exact ht ▸ memWrite_cfg r _ v

/-- Settles O14: a step idles or has a cause, and no operation writes the configuration. -/
theorem stepKeepsConfiguration : Obligations.StepKeepsConfiguration := by
  intro s t h
  rcases step_cause s t h with ⟨_, rfl⟩ | ⟨slot, rest, _, hcause⟩
  · rfl
  · exact hcause.cfg_eq

/-! The memory (10_state.md R40). -/

theorem memWrite_mem_wf (s : State) (addr : Nat) (v : Word) (hw : Memory.wf s.mem) : Memory.wf (memWrite s addr v).mem := by
  unfold memWrite
  split_ifs
  · exact executeCommand_mem_wf s v hw
  · exact hw
  · exact hw

theorem Cause.mem_wf {slot : Slot} {r t : State} (hcause : Cause slot r t) (hw : Memory.wf r.mem) : Memory.wf t.mem := by
  cases hcause with
  | draw q ok _ ht => exact ht ▸ hw
  | reset _ ht => exact ht ▸ List.Pairwise.nil
  | command v _ ht => exact ht ▸ executeCommand_mem_wf r v hw
  | tick _ _ ht => exact ht ▸ (tick_mem r).symm ▸ hw
  | service e _ _ ht => exact ht ▸ handler_mem_wf r.takeEvent e hw
  | read size off _ ht => exact ht ▸ hw
  | write off v _ _ ht => exact ht ▸ memWrite_mem_wf r _ v hw

/-- Settles O15: a refill's stores keep the canonical form, the reset empties the memory, and no other cause writes it. -/
theorem stepKeepsMemoryCanonical : Obligations.StepKeepsMemoryCanonical := by
  intro s t hw h
  rcases step_cause s t h with ⟨_, rfl⟩ | ⟨slot, rest, _, hcause⟩
  · exact hw
  · exact hcause.mem_wf hw

/-! `TRACE` (10_state.md R54). -/

theorem Cause.trace_cases {slot : Slot} {r t : State} (hcause : Cause slot r t) :
    (slot = .reset ∧ t.trace = []) ∨ t.trace = r.trace ∨
      presents slot .evTick ∧ r.running = true ∧
        t.trace = r.trace ++ [(r.channel, dacCode r.cfg (r.bufAt r.dmaPos.toNat))] := by
  cases hcause with
  | draw q ok _ ht => exact .inr (.inl (ht ▸ State.fixOutcome_trace r q ok))
  | reset hs ht => exact .inl ⟨hs, ht ▸ State.powerOnReset_trace r⟩
  | command v _ ht => exact .inr (.inl (ht ▸ executeCommand_trace r v))
  | tick hs hr ht => exact .inr (.inr ⟨hs, hr, ht ▸ tick_trace r⟩)
  | service e _ _ ht => exact .inr (.inl (ht ▸ handler_trace r.takeEvent e))
  | read size off _ ht => exact .inr (.inl (ht ▸ rfl))
  | write off v _ _ ht => exact .inr (.inl (ht ▸ memWrite_trace r _ v))

/-- Settles O18: of all the causes only the tick transfers a code. -/
theorem traceGrowsOnlyByTick : Obligations.TraceGrowsOnlyByTick := by
  intro s t h
  rcases step_cause s t h with ⟨_, rfl⟩ | ⟨slot, rest, hs, hcause⟩
  · exact .inr (.inl rfl)
  · rcases hcause.trace_cases with ⟨rfl, htrace⟩ | htrace | htick
    · exact .inl ⟨by simp [hs], htrace⟩
    · exact .inr (.inl htrace)
    · exact .inr (.inr ⟨slot, rest, hs, htick⟩)

/-! `STAGE` (10_state.md R50, 20_memory.md R84). -/

/-- The reserved word of a slot has no field (10_state.md R50). -/
theorem writeStage_reserved (g : StageSlot) (addr : Nat) (v : Word) (h : (addr - stageBase) % 16 = 12) :
    writeStage g addr v = g := by
  simp [writeStage, h]

theorem stage_set_stageAt (s : State) (k : Nat) : s.stage.set k (s.stageAt k) = s.stage := by
  by_cases hk : k < s.stage.length
  · simp [State.stageAt, hk]
  · exact List.set_eq_of_length_le (Nat.le_of_not_lt hk)

theorem memWrite_stage_cases (s : State) (addr : Nat) (v : Word) :
    (memWrite s addr v).stage = s.stage ∨ 0x100 ≤ addr ∧ addr < 0x100 + 16 * s.cfg.maxSteps ∧ addr % 16 ≠ 12 := by
  unfold memWrite
  split_ifs with h0 hin
  · exact .inl (executeCommand_stage s v)
  · obtain ⟨hlow, hhigh⟩ := (inStage_iff s.cfg addr).1 hin
    by_cases hres : addr % 16 = 12
    · have hword : (addr - 0x100) % 16 = 12 := by omega
      rw [writeStage_reserved _ _ _ hword]
      exact .inl (stage_set_stageAt s _)
    · exact .inr ⟨hlow, hhigh, hres⟩
  · exact .inl rfl

theorem Cause.stage_cases {slot : Slot} {r t : State} (hcause : Cause slot r t) :
    t.stage = r.stage ∨ slot = .reset ∨
      ∃ off v, presents slot (.wr .word off v) ∧
        0x100 ≤ off.toNat ∧ off.toNat < 0x100 + 16 * r.cfg.maxSteps ∧ off.toNat % 16 ≠ 12 := by
  cases hcause with
  | draw q ok _ ht => exact .inl (ht ▸ State.fixOutcome_stage r q ok)
  | reset hs _ => exact .inr (.inl hs)
  | command v _ ht => exact .inl (ht ▸ executeCommand_stage r v)
  | tick _ _ ht => exact .inl (ht ▸ tick_stage r)
  | service e _ _ ht => exact .inl (ht ▸ handler_stage r.takeEvent e)
  | read size off _ ht => exact .inl (ht ▸ rfl)
  | write off v hs _ ht =>
    rcases memWrite_stage_cases r off.toNat v with hsame | hin
    · exact .inl (ht ▸ hsame)
    · exact .inr (.inr ⟨off, v, hs, hin⟩)

/-- Settles O20: of all the causes only the reset and a host write to the staging window reach `STAGE`, and the window's
reserved words reach no field. -/
theorem stageWrittenOnlyByHost : Obligations.StageWrittenOnlyByHost := by
  intro s t h
  rcases step_cause s t h with ⟨_, rfl⟩ | ⟨slot, rest, hs, hcause⟩
  · exact .inl rfl
  · rcases hcause.stage_cases with hstage | rfl | ⟨off, v, hwrite⟩
    · exact .inl hstage
    · exact .inr (.inl (by simp [hs]))
    · exact .inr (.inr ⟨slot, rest, off, v, hs, hwrite⟩)

end Sys2Proof.Machine
end

section
/-! The invariants of 10_state.md R55: every operation of the block takes a consistent state to a consistent state. An Idle
outcome goes by `consistent_of_idle`, a Running one by `Armed` (Laws/Legal.lean). -/

namespace Sys2Proof.Machine

/-- An Idle state is consistent once it meets INV2, INV3 and INV8 and the forms of the fields: the other invariants speak of
a Running sequencer or of pending events. -/
theorem consistent_of_idle (s : State) (hc : s.cfg.wellFormed = true) (hr : s.running = false) (h2 : inv2 s) (h3 : inv3 s)
    (h8 : inv8 s) (hm : memForm s) (hs : seqForm s) (hg : rangeForm s) : Consistent s := by
  obtain ⟨hq, hpend, _⟩ := h2 hr
  have notActive : s.seqState ≠ .active := by rcases hq with hq | hq <;> simp [hq]
  have notFinished : s.seqState ≠ .finished := by rcases hq with hq | hq <;> simp [hq]
  exact ⟨hc, ⟨fun h => absurd (hr.symm.trans h) Bool.false_ne_true, h2, h3, fun h => absurd h notActive,
    fun h => absurd h notFinished, fun h => absurd h notActive, show s.pending.Nodup by simp [hpend], h8⟩, hm, hs, hg⟩

/-- A value reduced to `d` bits stays so in whatever width holds it. -/
theorem toNat_ofNat_mod_two_pow_lt (w x d : Nat) : (BitVec.ofNat w (x % 2 ^ d)).toNat < 2 ^ d := by
  rw [BitVec.toNat_ofNat]
  exact lt_of_le_of_lt (Nat.mod_le _ _) (Nat.mod_lt _ (Nat.two_pow_pos d))

/-! Power-on reset (70_reset_and_hazards.md R342). -/

theorem initial_consistent (c : Config) (n : Nat) (hc : c.wellFormed = true) : Consistent (State.initial c n) := by
  have hp := c.paramsLegal_iff.1 (c.wellFormed_iff.1 hc).1
  have hseq : ∀ k, (State.initial c n).seqAt k = StepRec.zero := replicate_zero_getD c.maxSteps
  have hphase : 0 < 2 ^ c.phaseBits := Nat.two_pow_pos _
  refine consistent_of_idle _ hc rfl (fun _ => ⟨.inl rfl, rfl, rfl, rfl, rfl, rfl, rfl⟩) (iff_of_true rfl rfl)
    (fun k hk => absurd hk (Nat.not_lt_zero k)) ⟨List.Pairwise.nil, fun x hx => absurd hx List.not_mem_nil⟩
    ⟨List.length_replicate .., List.length_replicate .., Nat.zero_le _, fun k _ => ?_⟩
    ⟨hphase, show 0 < c.bufferSize by omega, toNat_ofNat_mod_two_pow_lt .., toNat_ofNat_mod_two_pow_lt ..⟩
  rw [hseq]
  exact ⟨hphase, fun _ => rfl⟩

theorem powerOnReset_consistent (s : State) (h : Consistent s) : Consistent s.powerOnReset :=
  initial_consistent s.cfg (s.epoch + 1) h.1

/-! `INIT` (44_controller.md R261). -/

theorem initClear_consistent (s : State) (h : Consistent s) (hr : s.running = false) : Consistent (initClear s) := by
  obtain ⟨hc, ⟨_, h2, _⟩, hm, ⟨_, hstage, _, _⟩, hg⟩ := h
  have hseq : ∀ k, (initClear s).seqAt k = StepRec.zero := replicate_zero_getD s.cfg.maxSteps
  refine consistent_of_idle _ hc hr (fun _ => ⟨.inl rfl, (h2 hr).2⟩) (iff_of_true rfl rfl)
    (fun k hk => absurd hk (Nat.not_lt_zero k)) hm
    ⟨List.length_replicate .., hstage, Nat.zero_le _, fun k _ => ?_⟩ hg
  rw [hseq]
  exact ⟨Nat.two_pow_pos _, fun _ => rfl⟩

/-- `stopEffects_consistent` from a consistent state. -/
theorem Consistent.stopEffects {s : State} (h : Consistent s) : Consistent s.stopEffects := by
  obtain ⟨hc, ⟨_, _, _, _, _, _, _, h8⟩, hm, hs, hg⟩ := h
  exact stopEffects_consistent s hc h8 hm hs hg

theorem doInit_consistent (s : State) (h : Consistent s) : Consistent (doInit s) := by
  have hcleared : Consistent (initClear (if s.running then s.stopEffects else s)) := by
    split
    · exact initClear_consistent _ h.stopEffects rfl
    · next hr => exact initClear_consistent s h (by simpa using hr)
  have heffects : Consistent (initEffects s) := hcleared
  unfold doInit
  split
  · exact heffects
  · exact heffects

/-! `SET_SEQUENCE` (43_step_sequencer.md R230, R231). -/

/-- An accepted duration fills a positive whole number of halves, and no sample count wraps (43_step_sequencer.md R232). -/
theorem stepSamples_whole_halves (c : Config) (d : Word) (hp : c.paramsLegal = true) (hd : durationOk c d = true) :
    0 < (stepSamples c d).toNat ∧ (stepSamples c d).toNat % c.half = 0 := by
  obtain ⟨hpos, hmod⟩ := (durationOk_iff c d).1 hd
  have hpl := c.paramsLegal_iff.1 hp
  obtain ⟨m, hm⟩ := Nat.dvd_of_mod_eq_zero hmod
  simp only [Config.halfUsDen, Config.halfUsNum] at hm
  have hprod : 0 < d.toNat * c.sampleRate := Nat.mul_pos hpos (by omega)
  have hlt : d.toNat * c.sampleRate < 2 ^ 32 * 2 ^ 32 := Nat.mul_lt_mul'' d.isLt (by omega)
  have hdiv : d.toNat * c.sampleRate / 1000000 = c.half * m := by
    rw [hm, Nat.mul_right_comm]
    exact Nat.mul_div_cancel _ (by norm_num)
  have hval : (stepSamples c d).toNat = c.half * m := by
    simp only [stepSamples, BitVec.toNat_ofNat]
    omega
  have hpos' : 0 < c.half * m := by
    refine Nat.pos_of_ne_zero fun h0 => ?_
    rw [hm, Nat.mul_right_comm, h0] at hprod
    omega
  exact hval ▸ ⟨hpos', Nat.mul_mod_right ..⟩

/-- 41_phase_accumulator.md R160: an increment is a W-bit number. -/
theorem stepOfStage_inc_lt (c : Config) (g : StageSlot) : (stepOfStage c g).inc.toNat < 2 ^ c.phaseBits :=
  toNat_ofNat_mod_two_pow_lt ..

theorem configureCommit_consistent (s : State) (n : Nat) (h : Consistent s) (hr : s.running = false)
    (hok : configureOk s n = true) : Consistent (configureCommit s n) := by
  obtain ⟨hc, ⟨_, h2, _⟩, hm, ⟨_, hstage, _, _⟩, hg⟩ := h
  obtain ⟨hpos, hmax, hdur⟩ := (configureOk_iff s n).1 hok
  have hp := (s.cfg.wellFormed_iff.1 hc).1
  have hpl := s.cfg.paramsLegal_iff.1 hp
  have hcount : (configureCommit s n).seqCount.toNat = n := by
    simp only [configureCommit, BitVec.toNat_ofNat]
    omega
  have hseq : ∀ k, (configureCommit s n).seqAt k = _ := fun k => configureCommit_seqAt s n k hmax
  have h3 : inv3 (configureCommit s n) := by
    refine iff_of_false (by simp [configureCommit]) fun h0 => ?_
    rw [h0] at hcount
    exact absurd hcount (by simpa using hpos.ne)
  have h8 : inv8 (configureCommit s n) := fun k hk => by
    rw [hcount] at hk
    rw [hseq, if_pos hk]
    exact stepSamples_whole_halves s.cfg _ hp (hdur k hk)
  refine consistent_of_idle _ hc hr (fun _ => ⟨.inr rfl, (h2 hr).2⟩) h3 h8 hm
    ⟨by simp [configureCommit], hstage, hcount.trans_le hmax, fun k _ => ?_⟩ hg
  rw [hcount, hseq]
  split
  · next hk => exact ⟨stepOfStage_inc_lt s.cfg _, fun hle => absurd hk (by omega)⟩
  · exact ⟨Nat.two_pow_pos _, fun _ => rfl⟩

theorem doSetSequence_consistent (s : State) (n : Nat) (h : Consistent s) : Consistent (doSetSequence s n) := by
  unfold doSetSequence
  split_ifs with hr hok
  · exact h
  · exact configureCommit_consistent s n h (by simpa using hr) hok
  · exact h

/-! `START_OUTPUT` (44_controller.md R270). -/

/-- The cursor at the start of the stored sequence, in a configured block, is what a running block holds. -/
theorem seqStart_startArm_armed (s : State) (ch : Channel) (h : Consistent s) (hq : s.seqState ≠ .notConfigured) :
    Armed (seqStart (startArm s ch)) := by
  obtain ⟨hc, ⟨_, _, h3, _, _, _, _, h8⟩, hm, hs, ⟨_, _, hdac0, hdac1⟩⟩ := h
  have hp := s.cfg.paramsLegal_iff.1 (s.cfg.wellFormed_iff.1 hc).1
  have hcount : 0 < s.seqCount.toNat :=
    Nat.pos_of_ne_zero fun h0 => hq (h3.2 (BitVec.eq_of_toNat_eq h0))
  obtain ⟨hpos, hmod⟩ := h8 0 hcount
  have notFinished : (seqStart (startArm s ch)).seqState ≠ .finished := by simp [seqStart]
  exact ⟨hc, .inl rfl, hcount, fun _ => ⟨hcount, hpos, le_refl _, hmod⟩, fun hf => absurd hf notFinished, fun _ => rfl, h8,
    hm, hs, ⟨Nat.two_pow_pos _, show 0 < s.cfg.bufferSize by omega, hdac0, hdac1⟩⟩

theorem startCommit_consistent (s : State) (ch : Channel) (h : Consistent s) (hq : s.seqState ≠ .notConfigured) :
    Consistent (startCommit s ch) := by
  have hprefill : Armed (prefill (seqStart (startArm s ch))) :=
    (refill_armed _ .second (refill_armed _ .first (seqStart_startArm_armed s ch h hq)).1).1
  have hpend : (prefill (seqStart (startArm s ch))).pending = [] := prefill_pending _
  exact Armed.consistent _ hprefill rfl (hpend ▸ List.nodup_nil)

theorem doStartOutput_consistent (s : State) (ch : Channel) (h : Consistent s) : Consistent (doStartOutput s ch) := by
  have hdraws : Consistent (startDraws s) := h
  unfold doStartOutput
  split_ifs with hr hq
  · exact h
  · exact h
  · exact h
  · exact startCommit_consistent _ ch hdraws hq
  · exact hdraws

/-! Every command, and every write of the host's. -/

theorem executeCommand_consistent (s : State) (v : Word) (h : Consistent s) : Consistent (executeCommand s v) := by
  unfold executeCommand
  split
  · exact doInit_consistent s h
  · exact doSetSequence_consistent s _ h
  · exact doStartOutput_consistent s _ h
  · exact h.stopEffects
  · exact h
  · exact h

theorem memWrite_consistent (s : State) (addr : Nat) (v : Word) (h : Consistent s) : Consistent (memWrite s addr v) := by
  unfold memWrite
  split_ifs
  · exact executeCommand_consistent s v h
  · obtain ⟨hc, hinv, hm, ⟨hseq, hstage, hrest⟩, hg⟩ := h
    exact ⟨hc, hinv, hm, ⟨hseq, (List.length_set ..).trans hstage, hrest⟩, hg⟩
  · exact h

/-! The tick (42_buffer_refill.md R192, R193). -/

theorem raiseEvent_pending_nodup (s : State) (e : DmaEvent) (h : s.pending.Nodup) : (s.raiseEvent e).pending.Nodup := by
  rw [raiseEvent_pending]
  split
  · exact h
  · next he => exact List.concat_eq_append ▸ List.Nodup.concat he h

theorem tick_pending_nodup (s : State) (h : s.pending.Nodup) : (tick s).pending.Nodup := by
  rw [tick_pending]
  unfold tickEvents
  split_ifs <;> simp only [raiseEvent_pending_nodup, h]

theorem tick_dacOut_lt (s : State) (ch : Channel) (h : (s.dacOut ch).toNat < 2 ^ s.cfg.dacBits) :
    ((tick s).dacOut ch).toNat < 2 ^ s.cfg.dacBits := by
  rw [tick_dacOut]
  split
  · exact toNat_ofNat_mod_two_pow_lt ..
  · exact h

theorem tick_dmaPos_lt (s : State) (hp : s.cfg.paramsLegal = true) : (tick s).dmaPos.toNat < s.cfg.bufferSize := by
  have hpl := s.cfg.paramsLegal_iff.1 hp
  exact (nextPos_toNat s.cfg hp s.dmaPos).trans_lt (Nat.mod_lt _ (by omega))

/-- A tick moves the DMA and raises events; the sequencer and the buffer stay as they are. -/
theorem tick_consistent (s : State) (h : Consistent s) (hr : s.running = true) : Consistent (tick s) := by
  obtain ⟨hc, ⟨h1, _, h3, h4, h5, h6, h7, h8⟩, hm, hs, ⟨hphase, _, hdac0, hdac1⟩⟩ := h
  have hp := (s.cfg.wellFormed_iff.1 hc).1
  have hcfg := tick_cfg s
  have hrun : (tick s).running = true := (tick_running s).trans hr
  have hseqAt : ∀ k, (tick s).seqAt k = s.seqAt k := fun k => by simp [State.seqAt]
  refine ⟨by rwa [hcfg], ⟨?_, fun hf => absurd (hrun.symm.trans hf) (by simp), ?_, ?_, ?_, ?_, tick_pending_nodup s h7, ?_⟩,
    ?_, ?_, ?_, ?_, ?_, ?_⟩
  · simpa [inv1] using h1
  · simpa [inv3] using h3
  · simpa [inv4, hseqAt] using h4
  · simpa [inv5] using h5
  · simpa [inv6] using h6
  · simpa [inv8, hseqAt] using h8
  · simpa [memForm] using hm
  · simpa [seqForm, hseqAt] using hs
  · simpa using hphase
  · exact hcfg ▸ tick_dmaPos_lt s hp
  · exact hcfg ▸ tick_dacOut_lt s .ch0 hdac0
  · exact hcfg ▸ tick_dacOut_lt s .ch1 hdac1

/-! The services (42_buffer_refill.md R198, R199). -/

/-- The ISR has a step only while Running (INV2): the auto-stop leaves an Idle block, a refill a Running one. -/
theorem handler_takeEvent_consistent (s : State) (e : DmaEvent) (h : Consistent s) (he : s.pending.head? = some e) :
    Consistent (handler s.takeEvent e) := by
  have hr : s.running = true := by
    by_contra hf
    obtain ⟨_, ⟨_, h2, _⟩, _⟩ := h
    obtain ⟨_, hpend, _⟩ := h2 (by simpa using hf)
    simp [hpend] at he
  have harmed : Armed s.takeEvent := Consistent.armed s h hr
  have hstop : Consistent (autoStop s.takeEvent) := Consistent.stopEffects (s := s) h
  obtain ⟨_, ⟨_, _, _, _, _, _, h7, _⟩, _⟩ := h
  unfold handler
  split
  · exact hstop
  · refine Armed.consistent _ (refill_armed _ _ harmed).1 ?_ ?_
    · rw [refill_running]
      exact hr
    · rw [refill_pending]
      exact h7.tail

/-! Every cause of a step. -/

theorem Cause.consistent {slot : Slot} {r t : State} (hcause : Cause slot r t) (h : Consistent r) : Consistent t := by
  cases hcause with
  | draw q ok _ ht => exact ht ▸ h
  | reset _ ht => exact ht ▸ powerOnReset_consistent r h
  | command v _ ht => exact ht ▸ executeCommand_consistent r v h
  | tick _ hr ht => exact ht ▸ tick_consistent r h hr
  | service e _ he ht => exact ht ▸ handler_takeEvent_consistent r e h he
  | read size off _ ht => exact ht ▸ h
  | write off v _ _ ht => exact ht ▸ memWrite_consistent r _ v h

theorem step_consistent (s t : State) (h : step s = .next t) (hs : Consistent s) : Consistent t := by
  rcases step_cause s t h with ⟨_, rfl⟩ | ⟨slot, rest, _, hcause⟩
  · exact hs
  · exact hcause.consistent hs

/-- Settles O13: every cause keeps a state consistent, and the sine table is part of the configuration. -/
theorem stepKeepsLegal : Obligations.StepKeepsLegal := by
  intro s t h
  refine ⟨step_consistent s t h, fun ⟨hc, hs⟩ => ⟨?_, step_consistent s t h hs⟩⟩
  rwa [stepKeepsConfiguration s t h]

end Sys2Proof.Machine
end

section
/-! The register reads of 10_state.md: the fields of `STATUS` (R48) and of the parameter registers (R51), and the `BUF` window
(R52). A register word is a concatenation, and the lemmas on it write its width as the sum of the widths of its fields. -/

namespace Sys2Proof.Machine

/-! `STATUS` (10_state.md R48). -/

theorem statusWord_flags (s : State) (w : BitVec (8 + 8 + 4 + 2 + 1 + 1 + 1 + 1 + 1 + 1 + 2 + 1 + 1)) (hw : w = s.statusWord) :
    w.getLsbD 0 = s.running ∧ w.getLsbD 1 = s.channel.bit ∧ w.getLsbD 4 = s.initDone ∧ w.getLsbD 5 = s.done ∧
      w.getLsbD 6 = s.underrun ∧ w.getLsbD 7 = s.pending.contains .ht ∧ w.getLsbD 8 = s.pending.contains .tc ∧
      w.getLsbD 9 = (s.pending.head? == some .tc) := by
  subst hw
  unfold State.statusWord
  simp only [BitVec.getLsbD_append, ofBool_getLsbD_zero]
  simp

theorem statusWord_fields (s : State) (w : BitVec (8 + 8 + 4 + 2 + 1 + 1 + 1 + 1 + 1 + 1 + 2 + 1 + 1)) (hw : w = s.statusWord) :
    w.extractLsb' 2 2 = s.seqState.code ∧ w.extractLsb' 10 2 = lastHalfCode s.lastHalf ∧ w.extractLsb' 12 4 = 0#4 ∧
      w.extractLsb' 16 8 = s.stepIndex ∧ w.extractLsb' 24 8 = 0#8 := by
  subst hw
  unfold State.statusWord
  simp (disch := omega) only [BitVec.extractLsb'_append_eq_of_le, BitVec.extractLsb'_append_eq_of_add_le]
  simp

theorem initial_statusWord (c : Config) (n : Nat) : (State.initial c n).statusWord = 0#32 := by
  simp only [State.statusWord, State.initial_stepIndex, State.initial_lastHalf, State.initial_pending, State.initial_underrun,
    State.initial_done, State.initial_initDone, State.initial_seqState, State.initial_channel, State.initial_running]
  rfl

/-! The parameter registers (10_state.md R51). -/

theorem param0_fields (c : Config) (w : BitVec (8 + 8 + 8 + 8)) (hw : w = param0 c) :
    w.extractLsb' 0 8 = BitVec.ofNat 8 c.tableLenLog2 ∧ w.extractLsb' 8 8 = BitVec.ofNat 8 c.phaseFracBits ∧
      w.extractLsb' 16 8 = BitVec.ofNat 8 c.dacBits ∧ w.extractLsb' 24 8 = BitVec.ofNat 8 c.maxSteps := by
  subst hw
  unfold param0
  simp (disch := omega) only [BitVec.extractLsb'_append_eq_of_le, BitVec.extractLsb'_append_eq_of_add_le]
  simp

theorem param1_fields (c : Config) (w : BitVec (7 + 1 + 7 + 17)) (hw : w = param1 c) :
    w.extractLsb' 0 17 = BitVec.ofNat 17 c.bufferSize ∧ w.extractLsb' 17 7 = 0#7 ∧
      w.getLsbD 24 = endPolicyBit c.endPolicy ∧ w.extractLsb' 25 7 = 0#7 := by
  subst hw
  unfold param1
  simp (disch := omega) only [BitVec.extractLsb'_append_eq_of_le, BitVec.extractLsb'_append_eq_of_add_le, BitVec.getLsbD_append]
  simp

theorem endPolicyBit_eq (p : EndPolicy) : endPolicyBit p = decide (p = .loop) := by
  cases p
  · rfl
  · rfl

theorem toNat_of_eq_ofNat {w n : Nat} {v : BitVec w} (hv : v = BitVec.ofNat w n) (hn : n < 2 ^ w) : v.toNat = n := by
  rw [hv, BitVec.toNat_ofNat, Nat.mod_eq_of_lt hn]

/-- Settles O54: each field is the piece of its register's concatenation at its place, and legal parameters fit their
fields. -/
theorem statusAndParameterFields : Obligations.StatusAndParameterFields := by
  refine ⟨fun s => ?_, initial_statusWord, fun c h => ?_, rfl, rfl, rfl⟩
  · obtain ⟨hrun, hch, hinit, hdone, hunder, hht, htc, hhead⟩ := statusWord_flags s s.statusWord rfl
    obtain ⟨hseq, hlast, hres12, hidx, hres24⟩ := statusWord_fields s s.statusWord rfl
    refine ⟨hrun, hch, hseq.trans ?_, hinit, hdone, hunder, hht.trans ?_, htc.trans ?_, hhead.trans ?_, hlast.trans ?_,
      hres12, hidx, hres24⟩
    · cases s.seqState <;> rfl
    · exact List.contains_eq_mem ..
    · exact List.contains_eq_mem ..
    · exact beq_eq_decide ..
    · cases s.lastHalf with
      | none => rfl
      | some half => cases half <;> rfl
  · have hp := c.paramsLegal_iff.1 h
    obtain ⟨hL, hF, hD, hM⟩ := param0_fields c (param0 c) rfl
    obtain ⟨hB, hres17, hpolicy, hres25⟩ := param1_fields c (param1 c) rfl
    exact ⟨toNat_of_eq_ofNat hL (by omega), toNat_of_eq_ofNat hF (by omega), toNat_of_eq_ofNat hD (by omega),
      toNat_of_eq_ofNat hM (by omega), toNat_of_eq_ofNat hB (by omega), hres17,
      hpolicy.trans (endPolicyBit_eq c.endPolicy), hres25, toNat_of_eq_ofNat rfl (by omega)⟩

/-! The `BUF` window (10_state.md R52, 20_memory.md R81, R83). -/

/-- The staging slots end where the `BUF` window begins, at the latest (00_scope.md R12: at most 240 steps). -/
theorem inStage_eq_false_of_bufBase_le (c : Config) (h : c.paramsLegal = true) (a : Nat) (ha : bufBase ≤ a) :
    inStage c a = false := by
  have hp := c.paramsLegal_iff.1 h
  refine Bool.eq_false_iff.2 fun hin => ?_
  have hlt := ((inStage_iff c a).1 hin).2
  simp only [bufBase] at ha
  omega

/-- None of the eleven registers of 10_state.md R45 and no staging slot is read there. -/
theorem memRead_bufAddr (s : State) (j : Nat) (size : AccessSize) (hp : s.cfg.paramsLegal = true) (hj : j < s.cfg.bufferSize) :
    memRead s (bufAddr j) size = readBuf s (bufAddr j) size := by
  have hle : bufBase ≤ bufAddr j := Nat.le_add_right ..
  have hstage := inStage_eq_false_of_bufBase_le s.cfg hp (bufAddr j) hle
  have hbuf : inBuf s.cfg (bufAddr j) = true := (inBuf_iff ..).2 ⟨hle, by simp only [bufAddr, bufBase]; omega⟩
  simp only [bufBase] at hle
  unfold memRead
  rw [hstage, hbuf]
  iterate 11 rw [if_neg (by omega)]
  rfl

theorem memWrite_bufAddr (s : State) (j : Nat) (v : Word) (hp : s.cfg.paramsLegal = true) : memWrite s (bufAddr j) v = s := by
  have hle : bufBase ≤ bufAddr j := Nat.le_add_right ..
  have hstage := inStage_eq_false_of_bufBase_le s.cfg hp (bufAddr j) hle
  simp only [bufBase] at hle
  unfold memWrite
  rw [hstage, if_neg (by omega)]
  rfl

/-- Settles O56: the offset lies past the registers and the staging slots, so a read takes the window's elements and a write
finds nothing to write. -/
theorem readBuffer : Obligations.ReadBuffer := by
  intro s j hp hj
  have hpl := s.cfg.paramsLegal_iff.1 hp
  have hoff : (BitVec.ofNat 18 (0x1000 + 2 * j)).toNat = bufAddr j := by
    simp only [bufAddr, bufBase, BitVec.toNat_ofNat]
    omega
  have hindex : (bufAddr j - bufBase) / 2 = j := by
    simp only [bufAddr, bufBase]
    omega
  have hhalf : accessOk s.cfg .rd .half (bufAddr j) = true :=
    (halfReadOk_iff ..).2 (by simp only [bufAddr, bufBase]; omega)
  have hword : j % 2 = 0 → wordAccessOk (bufAddr j) = true := fun heven =>
    (wordAccessOk_iff _).2 (by simp only [bufAddr, bufBase]; omega)
  refine ⟨?_, fun heven => ?_, fun v heven => ?_⟩
  · simp only [exec, execRd, hoff, hhalf, if_true, memRead_bufAddr s j _ hp hj, readBuf, hindex]
  · refine ⟨{ s with readData := s.bufAt (j + 1) ++ s.bufAt j }, ?_, BitVec.extractLsb'_append_eq_right,
      BitVec.extractLsb'_append_eq_left, rfl⟩
    simp only [exec, execRd, hoff, accessOk, hword heven, if_true, memRead_bufAddr s j _ hp hj, readBuf, hindex]
  · simp only [exec, execWr, hoff, accessOk, hword heven, if_true, memWrite_bufAddr s j v hp]

end Sys2Proof.Machine
end

section
/-! The host accesses of 20_memory.md: which of them the block admits (R82), the map of the window that a read (R83) and a write
(R84) go by, and the host addresses (R85). The rules for `RD` and `WR` come first; the statements go through them. -/

namespace Sys2Proof.Machine

/-! `RD` and `WR` (20_memory.md R82). -/

theorem exec_rd_of_accessOk (s : State) (size : AccessSize) (off : Offset) (h : accessOk s.cfg .rd size off.toNat = true) :
    exec (.rd size off) s = .next { s with readData := memRead s off.toNat size } := if_pos h

theorem exec_rd_of_not_accessOk (s : State) (size : AccessSize) (off : Offset) (h : ¬accessOk s.cfg .rd size off.toNat = true) :
    exec (.rd size off) s = .fault .hostStuck := if_neg h

theorem exec_wr_of_accessOk (s : State) (size : AccessSize) (off : Offset) (v : Word)
    (h : accessOk s.cfg .wr size off.toNat = true) : exec (.wr size off v) s = .next (memWrite s off.toNat v) := if_pos h

theorem exec_wr_of_not_accessOk (s : State) (size : AccessSize) (off : Offset) (v : Word)
    (h : ¬accessOk s.cfg .wr size off.toNat = true) : exec (.wr size off v) s = .fault .hostStuck := if_neg h

/-- The bus names no access of this number of bytes. -/
theorem decode_bus_of_size_ne (dir : Direction) (size : BitVec 3) (off : Offset) (v : Word) (h2 : size ≠ 2#3)
    (h4 : size ≠ 4#3) : decode (.bus dir size off v) = .error .badAccess := by
  simp only [decode, decodeBus, decodeSize, if_neg h2, if_neg h4]

theorem step_bus_of_size_ne (s : State) (dir : Direction) (size : BitVec 3) (off : Offset) (v : Word) (rest : List Slot)
    (h2 : size ≠ 2#3) (h4 : size ≠ 4#3) (hs : s.schedule = .packet (.bus dir size off v) :: rest) :
    step s = .fault .hostStuck := by
  rw [step_of_schedule s _ rest hs]
  simp only [runSlot, runPacket, decode_bus_of_size_ne dir size off v h2 h4]

/-- Settles O57: each access is admitted or stuck as its check of R82 says, and a bus size that names no access decodes to
`badAccess`. -/
theorem hostAccessAdmittedExactly : Obligations.HostAccessAdmittedExactly := by
  intro s off v hp
  have hpl := s.cfg.paramsLegal_iff.1 hp
  have hword : off.toNat % 4 = 0 ∧ off.toNat ≤ 0x2FFFF ↔ wordAccessOk off.toNat = true := by
    rw [wordAccessOk_iff]
    omega
  have hhalf : off.toNat % 2 = 0 ∧ 0x1000 ≤ off.toNat ∧ off.toNat ≤ 0x1000 + 2 * s.cfg.bufferSize - 1 ↔
      halfReadOk s.cfg off.toNat = true := by
    rw [halfReadOk_iff]
    omega
  rw [hword, hhalf]
  refine ⟨fun hok => ⟨⟨_, exec_rd_of_accessOk s .word off hok⟩, _, exec_wr_of_accessOk s .word off v hok⟩,
    fun hno => ⟨exec_rd_of_not_accessOk s .word off hno, exec_wr_of_not_accessOk s .word off v hno⟩,
    fun hok => ⟨_, exec_rd_of_accessOk s .half off hok⟩,
    fun hno => exec_rd_of_not_accessOk s .half off hno,
    exec_wr_of_not_accessOk s .half off v Bool.false_ne_true,
    fun dir size rest h2 h4 hs => step_bus_of_size_ne s dir size off v rest h2 h4 hs⟩

/-! The registers (20_memory.md R83, R84). -/

/-- Settles O53: each register's offset admits a word access, and `memRead` gives the register there. -/
theorem readRegisters : Obligations.ReadRegisters := by
  intro s
  have hread (off : Offset) (hok : wordAccessOk off.toNat = true) :
      exec (.rd .word off) s = .next { s with readData := memRead s off.toNat .word } := exec_rd_of_accessOk s .word off hok
  exact ⟨hread _ rfl, hread _ rfl, hread _ rfl, hread _ rfl, hread _ rfl, hread _ rfl, hread _ rfl, hread _ rfl, hread _ rfl,
    hread _ rfl, hread _ rfl⟩

theorem exec_wr_cmd (s : State) (v : Word) : exec (.wr .word 0x00000#18 v) s = .next (executeCommand s v) :=
  exec_wr_of_accessOk s .word 0x00000#18 v rfl

/-- Settles O44: both sides are `executeCommand` of the word. -/
theorem writeToCmdExecutesCommand : Obligations.WriteToCmdExecutesCommand := by
  intro s v i hd
  calc exec (.wr .word 0x00000#18 v) s = .next (executeCommand s v) := exec_wr_cmd s v
    _ = exec i s := (executeCommand_of_decode s v i hd).symm

/-! Past the registers: the staging slots and the reserved offsets (10_state.md R45, R50, R53). -/

/-- `SEQ_COUNT` at 0x028 is the last register (10_state.md R45). -/
theorem memRead_past_registers (s : State) (a : Nat) (size : AccessSize) (ha : 0x02C ≤ a) :
    memRead s a size =
      if inStage s.cfg a then readStage (s.stageAt (stageIndex a)) a else if inBuf s.cfg a then readBuf s a size else 0#32 := by
  unfold memRead
  iterate 11 rw [if_neg (by omega)]

theorem memRead_of_inStage (s : State) (a : Nat) (size : AccessSize) (h : inStage s.cfg a = true) :
    memRead s a size = readStage (s.stageAt (stageIndex a)) a := by
  have hlow := ((inStage_iff ..).1 h).1
  rw [memRead_past_registers s a size (by omega), if_pos h]

theorem memWrite_of_inStage (s : State) (a : Nat) (v : Word) (h : inStage s.cfg a = true) :
    memWrite s a v = { s with stage := s.stage.set (stageIndex a) (writeStage (s.stageAt (stageIndex a)) a v) } := by
  have hlow := ((inStage_iff ..).1 h).1
  unfold memWrite
  rw [if_neg (by omega), if_pos h]

theorem memRead_reserved (s : State) (a : Nat) (size : AccessSize) (ha : 0x02C ≤ a) (hstage : ¬inStage s.cfg a = true)
    (hbuf : ¬inBuf s.cfg a = true) : memRead s a size = 0#32 := by
  rw [memRead_past_registers s a size ha, if_neg hstage, if_neg hbuf]

theorem memWrite_ignored (s : State) (a : Nat) (v : Word) (h0 : a ≠ 0) (hstage : ¬inStage s.cfg a = true) :
    memWrite s a v = s := by
  unfold memWrite
  rw [if_neg h0, if_neg hstage]

/-- Settles O59: neither `CMD` nor a staging slot is written there. -/
theorem otherWritesIgnored : Obligations.OtherWritesIgnored := by
  intro s off v h4 hwin h0 hout
  have hstage : ¬inStage s.cfg off.toNat = true := by
    rw [inStage_iff]
    omega
  rw [exec_wr_of_accessOk s .word off v ((wordAccessOk_iff _).2 ⟨h4, hwin⟩), memWrite_ignored s _ v h0 hstage]

/-! The words of a staging slot (10_state.md R50): a word's field depends on its offset in the slot alone. -/

theorem slotWord_mod (k j : Nat) : (0x100 + 16 * k + j - stageBase) % 16 = (0x100 + j - stageBase) % 16 := by
  simp only [stageBase]
  omega

theorem readStage_slot (g : StageSlot) (k j : Nat) : readStage g (0x100 + 16 * k + j) = readStage g (0x100 + j) := by
  simp only [readStage, slotWord_mod]

theorem writeStage_slot (g : StageSlot) (k j : Nat) (v : Word) :
    writeStage g (0x100 + 16 * k + j) v = writeStage g (0x100 + j) v := by
  simp only [writeStage, slotWord_mod]

/-- At most 240 slots (00_scope.md R12): every word of a slot has an offset of the window, below `BUF`. -/
theorem stageWord_offset (c : Config) (k j : Nat) (hp : c.paramsLegal = true) (hk : k < c.maxSteps) (hj : j < 16)
    (h4 : j % 4 = 0) :
    (BitVec.ofNat 18 (0x100 + 16 * k + j)).toNat = 0x100 + 16 * k + j ∧ wordAccessOk (0x100 + 16 * k + j) = true ∧
      inStage c (0x100 + 16 * k + j) = true ∧ stageIndex (0x100 + 16 * k + j) = k := by
  have hpl := c.paramsLegal_iff.1 hp
  refine ⟨?_, ?_, ?_, ?_⟩
  · rw [BitVec.toNat_ofNat]
    omega
  · rw [wordAccessOk_iff]
    omega
  · rw [inStage_iff]
    omega
  · simp only [stageIndex, stageBase]
    omega

theorem exec_rd_stageWord (s : State) (k j a : Nat) (hp : s.cfg.paramsLegal = true) (hk : k < s.cfg.maxSteps) (hj : j < 16)
    (h4 : j % 4 = 0) (ha : a = 0x100 + 16 * k + j) :
    exec (.rd .word (BitVec.ofNat 18 a)) s = .next { s with readData := readStage (s.stageAt k) (0x100 + j) } := by
  obtain ⟨hoff, hok, hin, hindex⟩ := stageWord_offset s.cfg k j hp hk hj h4
  subst ha
  rw [exec_rd_of_accessOk s .word _ (hoff.symm ▸ hok), hoff, memRead_of_inStage s _ .word hin, hindex, readStage_slot]

theorem exec_wr_stageWord (s : State) (k j a : Nat) (v : Word) (hp : s.cfg.paramsLegal = true) (hk : k < s.cfg.maxSteps)
    (hj : j < 16) (h4 : j % 4 = 0) (ha : a = 0x100 + 16 * k + j) :
    exec (.wr .word (BitVec.ofNat 18 a) v) s =
      .next { s with stage := s.stage.set k (writeStage (s.stageAt k) (0x100 + j) v) } := by
  obtain ⟨hoff, hok, hin, hindex⟩ := stageWord_offset s.cfg k j hp hk hj h4
  subst ha
  rw [exec_wr_of_accessOk s .word _ v (hoff.symm ▸ hok), hoff, memWrite_of_inStage s _ v hin, hindex, writeStage_slot]

/-- Settles O55: a slot's word reads as its field, and no other word past the registers and outside `BUF` has a content. -/
theorem readStageAndReserved : Obligations.ReadStageAndReserved := by
  intro s hp
  refine ⟨fun k hk => ?_, fun off h4 hwin hres => ?_⟩
  · have hread (j a : Nat) := exec_rd_stageWord s k j a hp hk
    exact ⟨hread 0 _ (by decide) rfl rfl, hread 4 _ (by decide) rfl (by omega), hread 8 _ (by decide) rfl (by omega),
      hread 12 _ (by decide) rfl (by omega)⟩
  · have hpl := s.cfg.paramsLegal_iff.1 hp
    have hstage : ¬inStage s.cfg off.toNat = true := by
      rw [inStage_iff]
      omega
    have hbuf : ¬inBuf s.cfg off.toNat = true := by
      rw [inBuf_iff]
      omega
    rw [exec_rd_of_accessOk s .word off ((wordAccessOk_iff _).2 ⟨h4, hwin⟩),
      memRead_reserved s _ .word (by omega) hstage hbuf]

/-- Settles O58: the slot is replaced by itself with one field written; at the reserved word, by itself. -/
theorem writeStageSlot : Obligations.WriteStageSlot := by
  intro s k v hs hk
  obtain ⟨hwf, -⟩ := hs
  obtain ⟨hp, -⟩ := s.cfg.wellFormed_iff.1 hwf
  have hwrite (j a : Nat) := exec_wr_stageWord s k j a v hp hk
  refine ⟨hwrite 0 _ (by decide) rfl rfl, hwrite 4 _ (by decide) rfl (by omega), hwrite 8 _ (by decide) rfl (by omega), ?_⟩
  rw [hwrite 12 _ (by decide) rfl (by omega), writeStage_reserved _ (0x100 + 12) v (by decide), stage_set_stageAt]

/-! Host addresses (20_memory.md R85). -/

theorem offsetOfHostAddress_hostAddress (off : Offset) (h : off.toNat < 0x30000) :
    offsetOfHostAddress (hostAddress off) = some off := by
  have hin : Config.blockBase ≤ hostAddress off ∧ hostAddress off < Config.blockBase + windowSize :=
    ⟨Nat.le_add_right .., Nat.add_lt_add_left h _⟩
  rw [offsetOfHostAddress, if_pos hin, hostAddress, Nat.add_sub_cancel_left, BitVec.ofNat_toNat, BitVec.setWidth_eq]

theorem exists_offsetOfHostAddress_iff (a : Nat) :
    (∃ off, offsetOfHostAddress a = some off) ↔ Config.blockBase ≤ a ∧ a < Config.blockBase + 0x30000 := by
  unfold offsetOfHostAddress
  split_ifs with hin
  · exact ⟨fun _ => hin, fun _ => ⟨_, rfl⟩⟩
  · exact ⟨fun ⟨_, hoff⟩ => absurd hoff nofun, fun h => absurd h hin⟩

/-- Settles O60: a window offset is the difference of its host address and `BLOCK_BASE`. -/
theorem hostAddressesOfTheWindow : Obligations.HostAddressesOfTheWindow :=
  ⟨offsetOfHostAddress_hostAddress, exists_offsetOfHostAddress_iff⟩

end Sys2Proof.Machine
end

section
/-! The statements of 30_encoding.md on single packets: the opcode map of the command words (R112, R114), the round trip of
every instruction through its packet and its table bits, and the reserved event code (R116). -/

namespace Sys2Proof

/-! The fields of a command word (30_encoding.md R111): what a row's mask keeps, and what it leaves free. -/

theorem and_fullMask (v : Word) : v &&& 0xFFFFFFFF#32 = v := BitVec.and_allOnes

theorem cmdOpc_of_masked {v mask mtch : Word} (hmask : cmdOpc mask = 0xFF#8) (h : v &&& mask = mtch) :
    cmdOpc v = cmdOpc mtch := by
  calc cmdOpc v = cmdOpc v &&& 0xFF#8 := BitVec.and_allOnes.symm
    _ = cmdOpc v &&& cmdOpc mask := by rw [hmask]
    _ = cmdOpc (v &&& mask) := BitVec.extractLsb'_and.symm
    _ = cmdOpc mtch := by rw [h]

/-- A row's word is its match with the free bits put back. -/
theorem match_or_free {v mask mtch : Word} (h : v &&& mask = mtch) : mtch ||| v &&& ~~~mask = v := by
  rw [← h, ← BitVec.and_or_distrib_left, BitVec.or_not_self, BitVec.and_allOnes]

theorem cmdCount_shifted (v : Word) : (cmdCount v).setWidth 32 <<< 16 = v &&& ~~~0xFF00FFFF#32 := by
  have hfree : ∀ i < 32, (~~~0xFF00FFFF#32).getLsbD i = (decide (16 ≤ i) && decide (i - 16 < 8)) := by decide
  refine BitVec.eq_of_getLsbD_eq fun i hi => ?_
  simp only [cmdCount, BitVec.getLsbD_and, hfree i hi, BitVec.getLsbD_shiftLeft, BitVec.getLsbD_setWidth,
    BitVec.getLsbD_extractLsb']
  grind

theorem cmdChannel_shifted (v : Word) : (BitVec.ofBool (cmdChannel v).bit).setWidth 32 <<< 8 = v &&& ~~~0xFFFFFEFF#32 := by
  have hfree : ∀ i < 32, (~~~0xFFFFFEFF#32).getLsbD i = decide (i = 8) := by decide
  refine BitVec.eq_of_getLsbD_eq fun i hi => ?_
  simp only [cmdChannel, Channel.bit_ofBit, BitVec.getLsbD_and, hfree i hi, BitVec.getLsbD_shiftLeft, BitVec.getLsbD_setWidth,
    BitVec.getLsbD_ofBool]
  grind

theorem setSequenceWord_cmdCount {v : Word} (h : v &&& 0xFF00FFFF#32 = 0x00000002#32) : setSequenceWord (cmdCount v) = v := by
  rw [setSequenceWord, cmdCount_shifted, match_or_free h]

theorem startOutputWord_cmdChannel {v : Word} (h : v &&& 0xFFFFFEFF#32 = 0x00000003#32) :
    startOutputWord (cmdChannel v) = v := by
  rw [startOutputWord, cmdChannel_shifted, match_or_free h]

theorem cmdCount_setSequenceWord (n : BitVec 8) : cmdCount (setSequenceWord n) = n := by
  have hmatch : cmdCount 0x00000002#32 = 0#8 := rfl
  have hcount : cmdCount (n.setWidth 32 <<< 16) = n := by
    refine BitVec.eq_of_getLsbD_eq fun i hi => ?_
    simp only [cmdCount, BitVec.getLsbD_shiftLeft, BitVec.getLsbD_setWidth, BitVec.getLsbD_extractLsb']
    grind
  calc cmdCount (setSequenceWord n) = cmdCount 0x00000002#32 ||| cmdCount (n.setWidth 32 <<< 16) := BitVec.extractLsb'_or
    _ = n := by rw [hmatch, hcount, BitVec.zero_or]

theorem cmdChannel_startOutputWord (ch : Channel) : cmdChannel (startOutputWord ch) = ch := by
  cases ch
  · rfl
  · rfl

/-! The opcode map (30_encoding.md R112, R114). -/

/-- The word is one of the command's row: its masked bits are the row's match and the operand is its free field. A word that
no row has is `ILLEGAL` with its `OPC`. -/
def Command.HasWord (v : Word) : Command → Prop
  | .init => v = 0x00000001#32
  | .setSequence n => v &&& 0xFF00FFFF#32 = 0x00000002#32 ∧ n = cmdCount v
  | .startOutput ch => v &&& 0xFFFFFEFF#32 = 0x00000003#32 ∧ ch = cmdChannel v
  | .stopOutput => v = 0x00000004#32
  | .isRunning => v = 0x00000005#32
  | .illegal opc =>
    opc = cmdOpc v ∧ v ≠ 0x00000001#32 ∧ v &&& 0xFF00FFFF#32 ≠ 0x00000002#32 ∧ v &&& 0xFFFFFEFF#32 ≠ 0x00000003#32 ∧
      v ≠ 0x00000004#32 ∧ v ≠ 0x00000005#32

/-- The decoder's test of `OPC` is part of each row's mask. -/
theorem decodeCmd_hasWord (v : Word) : (decodeCmd v).HasWord v := by
  unfold decodeCmd
  split_ifs with h1 h2 h3 h4 h5
  · exact h1.2
  · exact ⟨h2.2, rfl⟩
  · exact ⟨h3.2, rfl⟩
  · exact h4.2
  · exact h5.2
  · exact ⟨rfl, fun hv => h1 ⟨congrArg cmdOpc hv, hv⟩, fun hv => h2 ⟨cmdOpc_of_masked rfl hv, hv⟩,
      fun hv => h3 ⟨cmdOpc_of_masked rfl hv, hv⟩, fun hv => h4 ⟨congrArg cmdOpc hv, hv⟩,
      fun hv => h5 ⟨congrArg cmdOpc hv, hv⟩⟩

/-- A word has one row: `OPC` tells them apart. -/
theorem decodeCmd_of_hasWord {v : Word} {k : Command} (h : k.HasWord v) : decodeCmd v = k := by
  cases k with
  | init => exact congrArg decodeCmd h
  | setSequence n =>
    obtain ⟨hv, rfl⟩ := h
    have hopc : cmdOpc v = 0x02#8 := cmdOpc_of_masked rfl hv
    simp [decodeCmd, hopc, hv]
  | startOutput ch =>
    obtain ⟨hv, rfl⟩ := h
    have hopc : cmdOpc v = 0x03#8 := cmdOpc_of_masked rfl hv
    simp [decodeCmd, hopc, hv]
  | stopOutput => exact congrArg decodeCmd h
  | isRunning => exact congrArg decodeCmd h
  | illegal opc =>
    obtain ⟨rfl, h1, h2, h3, h4, h5⟩ := h
    simp [decodeCmd, h1, h2, h3, h4, h5]

theorem decodeCmd_eq_iff (v : Word) (k : Command) : decodeCmd v = k ↔ k.HasWord v :=
  ⟨fun h => h ▸ decodeCmd_hasWord v, decodeCmd_of_hasWord⟩

theorem eq_cmdChannel_iff (v : Word) (ch : Channel) : ch = cmdChannel v ↔ ch.bit = v.getLsbD 8 := by
  refine ⟨fun h => h ▸ Channel.bit_ofBit _, fun h => ?_⟩
  rw [cmdChannel, ← h, Channel.ofBit_bit]

/-- Settles O3: the decoder gives the command whose row has the word, and the rows are those of the map. -/
theorem commandDecodeIsTheTable : Obligations.CommandDecodeIsTheTable := by
  intro v
  simp only [and_fullMask, ← eq_cmdChannel_iff]
  exact ⟨decodeCmd_eq_iff v .init, fun n => decodeCmd_eq_iff v (.setSequence n), fun ch => decodeCmd_eq_iff v (.startOutput ch),
    decodeCmd_eq_iff v .stopOutput, decodeCmd_eq_iff v .isRunning, fun opc => decodeCmd_eq_iff v (.illegal opc)⟩

/-- Settles O4: a row's word is its match with the free field put back, and that is how the encoder forms it. -/
theorem commandWordHasOneMeaning : Obligations.CommandWordHasOneMeaning := by
  intro v i hd
  have hinstr : (decodeCmd v).toInstr = .ok i := hd
  have hword := decodeCmd_hasWord v
  generalize decodeCmd v = k at hinstr hword
  cases k with
  | init => cases hinstr; exact congrArg Packet.cmd (Eq.symm hword)
  | setSequence n =>
    obtain ⟨hv, rfl⟩ := hword
    cases hinstr
    exact congrArg Packet.cmd (setSequenceWord_cmdCount hv)
  | startOutput ch =>
    obtain ⟨hv, rfl⟩ := hword
    cases hinstr
    exact congrArg Packet.cmd (startOutputWord_cmdChannel hv)
  | stopOutput => cases hinstr; exact congrArg Packet.cmd (Eq.symm hword)
  | isRunning => cases hinstr; exact congrArg Packet.cmd (Eq.symm hword)
  | illegal opc => cases hinstr

/-! Every instruction through its packet. -/

theorem decode_cmd_of_hasWord {v : Word} {k : Command} (h : k.HasWord v) : decode (.cmd v) = k.toInstr :=
  congrArg Command.toInstr (decodeCmd_of_hasWord h)

theorem decodeSize_encodeSize (size : AccessSize) : decodeSize (encodeSize size) = some size := by
  cases size
  · rfl
  · rfl

theorem decode_encode_rd (size : AccessSize) (off : Offset) (h : off.toNat < windowSize) :
    decode (encode (.rd size off)) = .ok (.rd size off) := by
  simp only [encode, decode, decodeBus, decodeSize_encodeSize, if_neg (Nat.not_le.2 h)]

theorem decode_encode_wr (size : AccessSize) (off : Offset) (v : Word) (h : off.toNat < windowSize) :
    decode (encode (.wr size off v)) = .ok (.wr size off v) := by
  simp only [encode, decode, decodeBus, decodeSize_encodeSize, if_neg (Nat.not_le.2 h)]

/-- Every admitted access lies in the window: `BUF` has at most 65536 elements (00_scope.md R12, 20_memory.md R82). -/
theorem lt_windowSize_of_accessOk (c : Config) (hp : c.paramsLegal = true) (dir : Direction) (size : AccessSize) (a : Nat)
    (h : accessOk c dir size a = true) : a < windowSize := by
  have hpl := c.paramsLegal_iff.1 hp
  have hword (ha : wordAccessOk a = true) : a < windowSize := ((wordAccessOk_iff a).1 ha).2
  cases dir with
  | rd =>
    cases size with
    | half =>
      have hbuf := (halfReadOk_iff c a).1 h
      simp only [windowSize]
      omega
    | word => exact hword h
  | wr =>
    cases size with
    | half => exact absurd h Bool.false_ne_true
    | word => exact hword h

/-- Settles O1: a command's word has its row, an event's code is listed, and a well-formed access lies in the window. -/
theorem decodeEncodeRoundTrip : Obligations.DecodeEncodeRoundTrip := by
  intro c i hp hwf
  cases i with
  | init => rfl
  | setSequence n =>
    have hword : (Command.setSequence n).HasWord (setSequenceWord n) :=
      ⟨Laws.setSequenceWord_masked n, (cmdCount_setSequenceWord n).symm⟩
    exact decode_cmd_of_hasWord hword
  | startOutput ch =>
    have hword : (Command.startOutput ch).HasWord (startOutputWord ch) :=
      ⟨Laws.startOutputWord_masked ch, (cmdChannel_startOutputWord ch).symm⟩
    exact decode_cmd_of_hasWord hword
  | stopOutput => rfl
  | isRunning => rfl
  | evTick => rfl
  | evHt => rfl
  | evTc => rfl
  | rd size off => exact decode_encode_rd size off (lt_windowSize_of_accessOk c hp .rd size _ hwf)
  | wr size off v => exact decode_encode_wr size off v (lt_windowSize_of_accessOk c hp .wr size _ hwf)

/-! Every packet through its table bits (log 17). -/

/-- A field takes the low bits of a number. -/
theorem ofNat_eq_of_mod_eq {w n : Nat} {v : BitVec w} (h : n % 2 ^ w = v.toNat) : BitVec.ofNat w n = v :=
  BitVec.eq_of_toNat_eq ((BitVec.toNat_ofNat ..).trans h)

/-- The fields of a `BUS` transaction do not overlap; `d` is the direction bit. -/
theorem packetOfBits_bus (d : Nat) (hd : d < 2) (size : BitVec 3) (off : Offset) (v : Word) :
    packetOfBits 56 (off.toNat + 2 ^ 18 * size.toNat + 2 ^ 21 * d + 2 ^ 24 * v.toNat) =
      some (.bus (directionOfBit (d == 1)) size off v) := by
  have hsize := size.isLt
  have hoff := off.isLt
  have hv := v.isLt
  generalize hw : off.toNat + 2 ^ 18 * size.toNat + 2 ^ 21 * d + 2 ^ 24 * v.toNat = w
  have hin : w < 2 ^ 56 ∧ w / 2 ^ 22 % 4 = 0 := by omega
  have hdir : w / 2 ^ 21 % 2 = d := by omega
  have hsize' : BitVec.ofNat 3 (w / 2 ^ 18) = size := ofNat_eq_of_mod_eq (by omega)
  have hoff' : BitVec.ofNat 18 w = off := ofNat_eq_of_mod_eq (by omega)
  have hv' : BitVec.ofNat 32 (w / 2 ^ 24) = v := ofNat_eq_of_mod_eq (by omega)
  simp only [packetOfBits, Nat.reduceLeDiff, Nat.reduceEqDiff, if_false, if_pos hin, hdir, hsize', hoff', hv']

theorem packetOfBits_bitsOfPacket (p : Packet) : packetOfBits (bitsOfPacket p).1 (bitsOfPacket p).2 = some p := by
  cases p with
  | cmd v => simp [bitsOfPacket, packetOfBits, v.isLt]
  | evt code => simp [bitsOfPacket, packetOfBits, code.isLt]
  | bus dir size off v =>
    cases dir with
    | rd => exact packetOfBits_bus 0 (by decide) size off v
    | wr => exact packetOfBits_bus 1 (by decide) size off v

/-- Settles O2: the table bits give the packet back, and the packet its instruction. -/
theorem tableBitsRoundTrip : Obligations.TableBitsRoundTrip := by
  intro c i hp hwf
  have hdecode := decodeEncodeRoundTrip c i hp hwf
  simp only [decodeTableWord, packetOfBits_bitsOfPacket, hdecode, Except.toOption]

/-- Settles O5: each row's word, written out, decodes by the row. -/
theorem sampleWordsDecode : Obligations.SampleWordsDecode :=
  ⟨rfl, rfl, rfl, rfl, rfl, rfl, rfl, rfl, rfl, rfl⟩

/-! The reserved event code (30_encoding.md R116). -/

theorem decode_reservedEvent : decode (.evt 0b11#2) = .error .reservedEvent := rfl

/-- Settles O6: the slot taken off is a packet, and the decoder rejects it by name. -/
theorem reservedEventRefused : Obligations.ReservedEventRefused := by
  intro s rest hs
  rw [Machine.step_of_schedule s _ rest hs]
  simp only [Machine.runSlot, Machine.runPacket, decode_reservedEvent]

end Sys2Proof
end

section
/-! The statement of 30_encoding.md on the pseudo-instructions (R119): a line assembles when each of its operands does, and the
host writes of its expansion decode to themselves. -/

namespace Sys2Proof.Machine

/-! The operands of a line (30_encoding.md R118). -/

theorem valueWord_of_mem (v : Int) (hlow : -(2 ^ 31) ≤ v) (hhigh : v < 2 ^ 32) : valueWord v = some (BitVec.ofInt 32 v) :=
  if_pos ⟨hlow, hhigh⟩

theorem valueWord_eq_none_iff (v : Int) : valueWord v = none ↔ v < -(2 ^ 31) ∨ 2 ^ 32 ≤ v := by
  unfold valueWord
  split_ifs with hrange
  · exact ⟨nofun, by omega⟩
  · exact ⟨fun _ => by omega, fun _ => rfl⟩

theorem setSequenceWord_ofNat (n : Nat) (h : n ≤ 255) :
    setSequenceWord (BitVec.ofNat 8 n) = 0x00000002#32 ||| (BitVec.ofNat 32 n <<< 16) := by
  rw [setSequenceWord, BitVec.setWidth_ofNat_of_le_of_lt (by decide) (by omega)]

theorem startOutputWord_ofBit (ch : Nat) (h : ch ≤ 1) :
    startOutputWord (Channel.ofBit (ch == 1)) = 0x00000003#32 ||| (BitVec.ofNat 32 ch <<< 8) := by
  interval_cases ch
  · rfl
  · rfl

/-- A host write in the window is presented as itself (30_encoding.md R117). -/
theorem wrSlot_presents (a : Nat) (v : Word) (h : a < windowSize) :
    presents (wrSlot a v) (.wr .word (BitVec.ofNat 18 a) v) := by
  refine ⟨_, rfl, decode_encode_wr .word _ v ?_⟩
  exact lt_of_le_of_lt (BitVec.toNat_ofNat .. ▸ Nat.mod_le ..) h

/-! The line `stage k, f, a, d` (30_encoding.md R119). -/

theorem assembleLine_stage (c : Config) (k : Nat) (f a d : Int) (hk : k < c.maxSteps) (hf : -(2 ^ 31) ≤ f) (hf' : f < 2 ^ 32)
    (ha : -(2 ^ 31) ≤ a) (ha' : a < 2 ^ 32) (hd : -(2 ^ 31) ≤ d) (hd' : d < 2 ^ 32) :
    assembleLine c (.stage k f a d) =
      some [wrSlot (0x100 + 16 * k) (BitVec.ofInt 32 f), wrSlot (0x104 + 16 * k) (BitVec.ofInt 32 a),
        wrSlot (0x108 + 16 * k) (BitVec.ofInt 32 d)] := by
  simp only [assembleLine, RegRef.addr, if_pos hk, valueWord_of_mem f hf hf', valueWord_of_mem a ha ha',
    valueWord_of_mem d hd hd', Option.bind_eq_bind, Option.bind_some, Option.pure_def]

theorem assembleLine_stage_eq_none (c : Config) (k : Nat) (f a d : Int)
    (h : c.maxSteps ≤ k ∨ valueWord f = none ∨ valueWord a = none ∨ valueWord d = none) :
    assembleLine c (.stage k f a d) = none := by
  rcases h with hk | hf | ha | hd
  · simp [assembleLine, RegRef.addr, hk]
  · simp [assembleLine, hf]
  · simp [assembleLine, ha]
  · simp [assembleLine, hd]

/-- Settles O7: each expansion is host writes in the window, of the words R119 lists, and an operand out of range has no
word. -/
theorem pseudoInstructionsAssemble : Obligations.PseudoInstructionsAssemble := by
  intro c hp
  have hpl := c.paramsLegal_iff.1 hp
  have hcmd (v : Word) : presents (wrSlot 0x000 v) (.wr .word 0x00000#18 v) := wrSlot_presents 0x000 v (by decide)
  refine ⟨⟨_, rfl, hcmd _⟩, fun n hn => ⟨_, if_pos hn, setSequenceWord_ofNat n hn ▸ hcmd _⟩,
    fun ch hch => ⟨_, if_pos hch, startOutputWord_ofBit ch hch ▸ hcmd _⟩, ⟨_, rfl, hcmd _⟩, ⟨_, rfl, hcmd _⟩,
    fun k f a d hk hf hf' ha ha' hd hd' => ?_, fun n hn => if_neg (Nat.not_le.2 hn), fun ch hch => if_neg (Nat.not_le.2 hch),
    fun k f a d hout => assembleLine_stage_eq_none c k f a d ?_⟩
  · have hwin : 0x108 + 16 * k < windowSize := by
      simp only [windowSize]
      omega
    exact ⟨_, _, _, assembleLine_stage c k f a d hk hf hf' ha ha' hd hd', wrSlot_presents _ _ (by omega),
      wrSlot_presents _ _ (by omega), wrSlot_presents _ _ hwin⟩
  · simpa only [valueWord_eq_none_iff, or_assoc] using hout

end Sys2Proof.Machine
end

section
/-! The statements of 40_sine_table.md (R141, R144 to R146). -/

namespace Sys2Proof

/-! Rounding (00_scope.md R13). -/

/-- `round_half_away` (00_scope.md R13), as `Config.SineMeetsFormula` writes it out. -/
noncomputable def roundHalfAway (x : ℝ) : ℤ := if 0 ≤ x then ⌊x + 1 / 2⌋ else -⌊-x + 1 / 2⌋

theorem roundHalfAway_eq_of_abs_sub_lt {x : ℝ} {v : ℤ} (h : |x - v| < 1 / 2) : roundHalfAway x = v := by
  obtain ⟨hlow, hhigh⟩ := abs_lt.1 h
  unfold roundHalfAway
  split_ifs
  · rw [Int.floor_eq_iff]
    constructor <;> linarith
  · rw [neg_eq_iff_eq_neg, Int.floor_eq_iff]
    push_cast
    constructor <;> linarith

theorem roundHalfAway_intCast (v : ℤ) : roundHalfAway v = v := roundHalfAway_eq_of_abs_sub_lt (by simp)

theorem roundHalfAway_zero : roundHalfAway 0 = 0 := by simpa using roundHalfAway_intCast 0

theorem roundHalfAway_neg (x : ℝ) : roundHalfAway (-x) = -roundHalfAway x := by
  rcases lt_trichotomy x 0 with hx | rfl | hx
  · simp only [roundHalfAway, Left.nonneg_neg_iff, hx.le, hx.not_ge, if_true, if_false, neg_neg]
  · rw [neg_zero, roundHalfAway_zero, neg_zero]
  · simp only [roundHalfAway, Left.nonneg_neg_iff, hx.le, hx.not_ge, if_true, if_false, neg_neg]

/-! The entry formula (40_sine_table.md R141). -/

/-- `PEAK * sin(2 * pi * i / N)`, before it is rounded. -/
noncomputable def Config.sineValue (c : Config) (i : ℕ) : ℝ :=
  (c.peak : ℝ) * Real.sin (2 * Real.pi * (i : ℝ) / (c.tableLen : ℝ))

theorem Config.sineMeetsFormula_iff (c : Config) :
    c.SineMeetsFormula ↔
      c.sine.length = c.tableLen ∧ ∀ i < c.tableLen, Machine.sineAt c i = roundHalfAway (c.sineValue i) :=
  and_congr_right' (forall₂_congr fun _ _ => forall_eq)

theorem Config.tableLen_ne_zero (c : Config) : (c.tableLen : ℝ) ≠ 0 := by simp [tableLen]

/-! The formula's symmetries (40_sine_table.md R146): sin is odd, and sin (pi - x) = sin x. -/

theorem Config.sineValue_eq (c : Config) {i : ℕ} {x : ℝ} (h : 2 * Real.pi * i = x * c.tableLen) :
    c.sineValue i = c.peak * Real.sin x := by
  rw [sineValue, h, mul_div_cancel_right₀ _ c.tableLen_ne_zero]

theorem Config.sineValue_tableLen_sub (c : Config) {i : ℕ} (h : i ≤ c.tableLen) :
    c.sineValue (c.tableLen - i) = -c.sineValue i := by
  rw [c.sineValue_eq (x := 2 * Real.pi - 2 * Real.pi * i / c.tableLen), Real.sin_two_pi_sub, mul_neg, sineValue]
  rw [Nat.cast_sub h, sub_mul, div_mul_cancel₀ _ c.tableLen_ne_zero, mul_sub]

theorem Config.sineValue_half_add (c : Config) {m : ℕ} (hm : c.tableLen = 2 * m) (i : ℕ) :
    c.sineValue (m + i) = -c.sineValue i := by
  rw [c.sineValue_eq (x := 2 * Real.pi * i / c.tableLen + Real.pi), Real.sin_add_pi, mul_neg, sineValue]
  rw [add_mul, div_mul_cancel₀ _ c.tableLen_ne_zero, hm]
  push_cast
  ring

theorem Config.sineValue_half_sub (c : Config) {m : ℕ} (hm : c.tableLen = 2 * m) {i : ℕ} (h : i ≤ m) :
    c.sineValue (m - i) = c.sineValue i := by
  rw [c.sineValue_eq (x := Real.pi - 2 * Real.pi * i / c.tableLen), Real.sin_pi_sub, sineValue]
  rw [Nat.cast_sub h, sub_mul, div_mul_cancel₀ _ c.tableLen_ne_zero, hm]
  push_cast
  ring

theorem Config.sineValue_zero (c : Config) : c.sineValue 0 = 0 := by simp [sineValue]

theorem Config.sineValue_quarter (c : Config) {q : ℕ} (hq : c.tableLen = 4 * q) : c.sineValue q = c.peak := by
  rw [c.sineValue_eq (x := Real.pi / 2), Real.sin_pi_div_two, mul_one]
  rw [hq]
  push_cast
  ring

theorem Config.exists_quarter (c : Config) (h : 2 ≤ c.tableLenLog2) : ∃ q, 0 < q ∧ c.tableLen = 4 * q := by
  obtain ⟨n, hn⟩ := Nat.exists_eq_add_of_le h
  exact ⟨2 ^ n, by positivity, by rw [tableLen, hn, pow_add]; rfl⟩

namespace Machine

/-- Settles O32: each law is one of the formula's symmetries, and rounding is odd. -/
theorem sineTableSymmetric : Obligations.SineTableSymmetric := by
  intro c hc hL
  obtain ⟨-, hentry⟩ := c.sineMeetsFormula_iff.1 hc
  obtain ⟨q, hq0, hq⟩ := c.exists_quarter hL
  have hm : c.tableLen = 2 * (2 * q) := by omega
  have hhalf : c.tableLen / 2 = 2 * q := by omega
  have hquarter : c.tableLen / 4 = q := by omega
  have hthree : 3 * c.tableLen / 4 = 2 * q + q := by omega
  have hzero : sineAt c 0 = 0 := by rw [hentry 0 (by omega), c.sineValue_zero, roundHalfAway_zero]
  have hpeak : sineAt c q = c.peak := by
    rw [hentry q (by omega), c.sineValue_quarter hq]
    exact_mod_cast roundHalfAway_intCast c.peak
  have hshift (i : ℕ) (hi : i < 2 * q) : sineAt c (2 * q + i) = -sineAt c i := by
    rw [hentry _ (by omega), hentry i (by omega), c.sineValue_half_add hm, roundHalfAway_neg]
  have hreflect (i : ℕ) (hi : i ≤ 2 * q) : sineAt c (2 * q - i) = sineAt c i := by
    rw [hentry _ (by omega), hentry i (by omega), c.sineValue_half_sub hm hi]
  have hodd (i : ℕ) (hi : i < c.tableLen) : sineAt c ((c.tableLen - i) % c.tableLen) = -sineAt c i := by
    rcases Nat.eq_zero_or_pos i with rfl | hpos
    · rw [Nat.sub_zero, Nat.mod_self, hzero, neg_zero]
    · rw [Nat.mod_eq_of_lt (by omega), hentry _ (by omega), hentry i hi, c.sineValue_tableLen_sub hi.le, roundHalfAway_neg]
  rw [hhalf, hquarter, hthree]
  exact ⟨hzero, (hreflect 0 (by omega)).trans hzero, hpeak, by rw [hshift q (by omega), hpeak], hodd, hshift, hreflect⟩

end Machine

end Sys2Proof
end

section
/-! The literal tables of 40_sine_table.md (R144, R145). Every angle of both tables is a multiple of pi / 128, so one point of
the unit circle, enclosed once, gives all their entries: its powers are computed exactly in the Gaussian integers, and the error
of the k-th power is at most k times the error of the point. -/

namespace Sys2Proof

/-! The point of the unit circle at the angle pi / 128. -/

/-- Taylor's bound for the sine, over an interval. -/
theorem sin_mem_of_mem {l u x : ℝ} (hl : 0 ≤ l) (hlx : l ≤ x) (hxu : x ≤ u) (hu : u ≤ 1) :
    l - u ^ 3 / 6 - u ^ 5 / 100 ≤ Real.sin x ∧ Real.sin x ≤ u - l ^ 3 / 6 + u ^ 5 / 100 := by
  have hx : 0 ≤ x := hl.trans hlx
  have hbound := Real.sin_bound (x := x) (by rw [abs_of_nonneg hx]; exact hxu.trans hu)
  rw [abs_of_nonneg hx, abs_le] at hbound
  have h3 : l ^ 3 ≤ x ^ 3 := by gcongr
  have h3' : x ^ 3 ≤ u ^ 3 := by gcongr
  have h5 : x ^ 5 ≤ u ^ 5 := by gcongr
  constructor <;> linarith

theorem sin_pi_div_128_near : |Real.sin (Real.pi / 128) - 26983366121 / 2 ^ 40| ≤ 17 / 10 ^ 11 := by
  have hlow := Real.pi_gt_d20
  have hhigh := Real.pi_lt_d20
  obtain ⟨hl, hu⟩ := sin_mem_of_mem (l := 0.0245436926061702) (u := 0.0245436926061703) (x := Real.pi / 128)
    (by norm_num) (by linarith) (by linarith) (by norm_num)
  rw [abs_le]
  constructor <;> linarith

/-- By `cos (2 * x) = 1 - 2 * sin x ^ 2`. -/
theorem cos_pi_div_128_near : |Real.cos (Real.pi / 128) - 1099180475430 / 2 ^ 40| ≤ 3 / 10 ^ 11 := by
  have hlow := Real.pi_gt_d20
  have hhigh := Real.pi_lt_d20
  obtain ⟨hl, hu⟩ := sin_mem_of_mem (l := 0.0122718463030851) (u := 0.0122718463030852) (x := Real.pi / 256)
    (by norm_num) (by linarith) (by linarith) (by norm_num)
  have hcos : Real.cos (Real.pi / 128) = 1 - 2 * Real.sin (Real.pi / 256) ^ 2 := by
    rw [← Real.cos_two_mul_eq_one_sub]
    congr 1
    ring
  have hl2 := pow_le_pow_left₀ (by norm_num) hl 2
  have hu2 := pow_le_pow_left₀ (le_trans (by norm_num) hl) hu 2
  rw [hcos, abs_le]
  constructor <;> linarith

/-- `e ^ (i * pi / 128)`. -/
noncomputable def unitPoint : ℂ := Complex.exp ((Real.pi / 128 : ℝ) * Complex.I)

/-- `2 ^ 40 * e ^ (i * pi / 128)`, rounded to a Gaussian integer. -/
def unitPointApprox : GaussianInt := ⟨1099180475430, 26983366121⟩

theorem norm_unitPoint : ‖unitPoint‖ = 1 := Complex.norm_exp_ofReal_mul_I _

theorem unitPoint_pow_im (k : ℕ) : (unitPoint ^ k).im = Real.sin (k * (Real.pi / 128)) := by
  rw [unitPoint, ← Complex.exp_nat_mul, ← mul_assoc, ← Complex.ofReal_natCast, ← Complex.ofReal_mul,
    Complex.exp_ofReal_mul_I_im]

theorem unitPointApprox_div : (unitPointApprox / 2 ^ 40 : ℂ) = ⟨1099180475430 / 2 ^ 40, 26983366121 / 2 ^ 40⟩ := by
  rw [GaussianInt.toComplex_def₂, show (2 ^ 40 : ℂ) = (2 ^ 40 : ℝ) by push_cast; rfl]
  apply Complex.ext
  · rw [Complex.div_ofReal_re]
    norm_num [unitPointApprox]
  · rw [Complex.div_ofReal_im]
    norm_num [unitPointApprox]

theorem norm_unitPointApprox_le : ‖(unitPointApprox / 2 ^ 40 : ℂ)‖ ≤ 1 := by
  rw [unitPointApprox_div, ← sq_le_one_iff₀ (norm_nonneg _), Complex.sq_norm, Complex.normSq_mk]
  norm_num

theorem unitPoint_near : ‖unitPoint - unitPointApprox / 2 ^ 40‖ ≤ 1 / (5 * 10 ^ 9) := by
  rw [unitPointApprox_div]
  refine (Complex.norm_le_abs_re_add_abs_im _).trans ?_
  rw [Complex.sub_re, Complex.sub_im, unitPoint, Complex.exp_ofReal_mul_I_re, Complex.exp_ofReal_mul_I_im]
  linarith [sin_pi_div_128_near, cos_pi_div_128_near]

/-! The powers of the point. -/

/-- In the closed unit disc the error of a power grows at most linearly. -/
theorem norm_pow_sub_pow_le {z w : ℂ} (hz : ‖z‖ ≤ 1) (hw : ‖w‖ ≤ 1) (k : ℕ) : ‖z ^ k - w ^ k‖ ≤ k * ‖z - w‖ := by
  induction k with
  | zero => simp
  | succ k ih =>
    calc ‖z ^ (k + 1) - w ^ (k + 1)‖ = ‖z ^ k * (z - w) + (z ^ k - w ^ k) * w‖ := by ring_nf
      _ ≤ ‖z ^ k * (z - w)‖ + ‖(z ^ k - w ^ k) * w‖ := norm_add_le ..
      _ ≤ 1 * ‖z - w‖ + k * ‖z - w‖ * 1 := by
        rw [norm_mul, norm_mul, norm_pow]
        gcongr
        exact pow_le_one₀ (norm_nonneg _) hz
      _ = (k + 1 : ℕ) * ‖z - w‖ := by push_cast; ring

theorem unitPointApprox_pow_im (k : ℕ) :
    ((unitPointApprox / 2 ^ 40 : ℂ) ^ k).im = ((unitPointApprox ^ k).im : ℝ) / (2 ^ 40) ^ k := by
  rw [GaussianInt.intCast_im, map_pow, div_pow, ← Complex.div_ofReal_im]
  push_cast
  rfl

theorem abs_sin_sub_unitPointApprox_pow_le (k : ℕ) :
    |Real.sin (k * (Real.pi / 128)) - ((unitPointApprox ^ k).im : ℝ) / (2 ^ 40) ^ k| ≤ (k : ℝ) * (1 / (5 * 10 ^ 9)) := by
  rw [← unitPoint_pow_im, ← unitPointApprox_pow_im, ← Complex.sub_im]
  calc |(unitPoint ^ k - (unitPointApprox / 2 ^ 40 : ℂ) ^ k).im|
    _ ≤ ‖unitPoint ^ k - (unitPointApprox / 2 ^ 40 : ℂ) ^ k‖ := Complex.abs_im_le_norm _
    _ ≤ k * ‖unitPoint - unitPointApprox / 2 ^ 40‖ := norm_pow_sub_pow_le norm_unitPoint.le norm_unitPointApprox_le k
    _ ≤ k * (1 / (5 * 10 ^ 9)) := by gcongr; exact unitPoint_near

/-! The entries, tested in integers. -/

/-- `p` times the approximate sine of `k * pi / 128` is nearer to `v` than half a unit, with 1 / 8192 to spare. -/
def EntryNear (p k : ℕ) (v : ℤ) : Prop :=
  8192 * |p * (unitPointApprox ^ k).im - v * (2 ^ 40) ^ k| < 4095 * (2 ^ 40) ^ k

theorem EntryNear.abs_sub_lt {p k : ℕ} {v : ℤ} (h : EntryNear p k v) :
    |p * (((unitPointApprox ^ k).im : ℝ) / (2 ^ 40) ^ k) - v| < (4095 / 8192 : ℝ) := by
  have hpos : (0 : ℝ) < (2 ^ 40) ^ k := by positivity
  have hreal : (8192 : ℝ) * |(p : ℝ) * (unitPointApprox ^ k).im - v * (2 ^ 40) ^ k| < 4095 * (2 ^ 40) ^ k := by
    unfold EntryNear at h
    exact_mod_cast h
  generalize ((2 : ℝ) ^ 40) ^ k = s at hpos hreal ⊢
  rw [← mul_div_assoc, div_sub' hpos.ne', abs_div, abs_of_pos hpos, div_lt_iff₀ hpos, mul_comm _ (v : ℝ)]
  linarith

/-- The margin of the test covers the error of a power up to a full turn, at the reference configuration's PEAK. -/
theorem EntryNear.roundHalfAway_eq {p k : ℕ} {v : ℤ} (h : EntryNear p k v) (hp : p ≤ 2047) (hk : k ≤ 256) :
    roundHalfAway (p * Real.sin (k * (Real.pi / 128))) = v := by
  have happrox := h.abs_sub_lt
  have hsin := abs_sin_sub_unitPointApprox_pow_le k
  generalize ((unitPointApprox ^ k).im : ℝ) / (2 ^ 40) ^ k = y at happrox hsin
  generalize Real.sin (k * (Real.pi / 128)) = x at hsin
  have hp' : (p : ℝ) ≤ 2047 := by exact_mod_cast hp
  have hk' : (k : ℝ) ≤ 256 := by exact_mod_cast hk
  refine roundHalfAway_eq_of_abs_sub_lt ?_
  calc |p * x - v| = |p * (x - y) + (p * y - v)| := by ring_nf
    _ ≤ p * |x - y| + |p * y - v| := by
      simpa only [abs_mul, Nat.abs_cast] using abs_add_le (p * (x - y)) (p * y - v)
    _ < 2047 * (256 * (1 / (5 * 10 ^ 9))) + 4095 / 8192 := by
      refine add_lt_add_of_le_of_lt ?_ happrox
      gcongr
      exact hsin.trans (by gcongr)
    _ < 1 / 2 := by norm_num

/-- A table whose step is `m` times pi / 128 meets the formula when every entry passes the test. -/
theorem Config.sineMeetsFormula_of_entryNear (c : Config) (m : ℕ) (hN : m * c.tableLen = 256) (hp : c.peak ≤ 2047)
    (hlen : c.sine.length = c.tableLen) (hnear : ∀ i < c.tableLen, EntryNear c.peak (m * i) (Machine.sineAt c i)) :
    c.SineMeetsFormula := by
  refine c.sineMeetsFormula_iff.2 ⟨hlen, fun i hi => ?_⟩
  have hk : m * i ≤ 256 := hN ▸ Nat.mul_le_mul_left m hi.le
  have hN' : (m * c.tableLen : ℝ) = 256 := by exact_mod_cast hN
  have hangle : 2 * Real.pi * i = (m * i : ℕ) * (Real.pi / 128) * c.tableLen := by
    push_cast
    linear_combination (-(Real.pi * i) / 128) * hN'
  rw [c.sineValue_eq hangle, (hnear i hi).roundHalfAway_eq hp hk]

theorem sineMini_near : ∀ i < 16, EntryNear 127 (16 * i) (Machine.sineMini.getD i 0) := by
  unfold EntryNear
  decide +kernel

theorem sineReference_near : ∀ i < 256, EntryNear 2047 (1 * i) (Machine.sineReference.getD i 0) := by
  unfold EntryNear
  decide +kernel

namespace Machine

/-- Settles O33: the mini table's step is 16 times pi / 128, for either end policy. -/
theorem miniTableMeetsFormula : Obligations.MiniTableMeetsFormula := fun policy =>
  (Config.mini policy).sineMeetsFormula_of_entryNear 16 rfl (by decide : 127 ≤ 2047) rfl sineMini_near

/-- Settles O34: the reference table's step is pi / 128. -/
theorem referenceTableMeetsFormula : Obligations.ReferenceTableMeetsFormula :=
  Config.reference.sineMeetsFormula_of_entryNear 1 rfl (by decide) (by decide +kernel) sineReference_near

end Machine

end Sys2Proof
end

section
/-! The statements of 41_phase_accumulator.md on the phase increment (R160, R161), the amplitude (R166) and the samples (R168,
R169). -/

namespace Sys2Proof.Machine

/-! Rounding to the nearest integer, halves up (00_scope.md R13). -/

theorem roundHalfUp_add_mul (p k : Nat) {q : Nat} (hq : 0 < q) : roundHalfUp (p + k * q) q = roundHalfUp p q + k := by
  unfold roundHalfUp
  rw [show 2 * (p + k * q) + q = 2 * p + q + k * (2 * q) by ring]
  exact Nat.add_mul_div_right _ k (by omega)

theorem roundHalfUp_zero {q : Nat} (hq : 0 < q) : roundHalfUp 0 q = 0 := Nat.div_eq_of_lt (by omega)

theorem two_mul_abs_roundHalfUp_sub_le (p : Nat) {q : Nat} (hq : 0 < q) :
    2 * |(roundHalfUp p q : Int) * q - p| ≤ q := by
  have hdivmod : 2 * q * roundHalfUp p q + (2 * p + q) % (2 * q) = 2 * p + q := Nat.div_add_mod ..
  have hrem : (2 * p + q) % (2 * q) < 2 * q := Nat.mod_lt _ (by omega)
  generalize (2 * p + q) % (2 * q) = r at hdivmod hrem
  have herror : 2 * ((roundHalfUp p q : Int) * q - p) = q - r := by
    have : (2 * q * roundHalfUp p q + r : Int) = 2 * p + q := mod_cast hdivmod
    linear_combination this
  rw [← abs_two (α := Int), ← abs_mul, herror, abs_le]
  omega

theorem roundHalfUp_lt {p q n : Nat} (h : 2 * p < q * (2 * n - 1)) : roundHalfUp p q < n := by
  obtain ⟨hq, hodd⟩ := CanonicallyOrderedAdd.mul_pos.1 (Nat.zero_lt_of_lt h)
  refine (Nat.div_lt_iff_lt_mul (by omega)).2 ?_
  calc 2 * p + q < q * (2 * n - 1) + q := by omega
    _ = q * (2 * n) := by rw [← Nat.mul_succ, Nat.succ_eq_add_one, Nat.sub_add_cancel (by omega)]
    _ = n * (2 * q) := by ring

/-! The phase increment (41_phase_accumulator.md R160). -/

theorem phaseIncrement_eq (c : Config) (f : Nat) :
    phaseIncrement c f = roundHalfUp (f * 2 ^ c.phaseBits) c.sampleRate % 2 ^ c.phaseBits := by
  rw [phaseIncrement, Config.tableLen, mul_assoc, ← pow_add, ← Config.phaseBits]

theorem phaseIncrement_add_sampleRate (c : Config) (f : Nat) (h : 0 < c.sampleRate) :
    phaseIncrement c (f + c.sampleRate) = phaseIncrement c f := by
  rw [phaseIncrement_eq, phaseIncrement_eq, add_mul, mul_comm c.sampleRate, roundHalfUp_add_mul _ _ h, Nat.add_mod_right]

theorem phaseIncrement_zero (c : Config) (h : 0 < c.sampleRate) : phaseIncrement c 0 = 0 := by
  rw [phaseIncrement_eq, zero_mul, roundHalfUp_zero h, Nat.zero_mod]

/-- Half the sample rate is an exact quotient, half a turn. -/
theorem phaseIncrement_half_sampleRate (c : Config) (h : 0 < c.sampleRate) (heven : c.sampleRate % 2 = 0)
    (hW : 0 < c.phaseBits) : phaseIncrement c (c.sampleRate / 2) = 2 ^ (c.phaseBits - 1) := by
  have hpow : 2 ^ c.phaseBits = 2 ^ (c.phaseBits - 1) * 2 := (Nat.two_pow_pred_mul_two hW).symm
  have hexact : c.sampleRate / 2 * 2 ^ c.phaseBits = 0 + 2 ^ (c.phaseBits - 1) * c.sampleRate := by
    rw [zero_add, hpow, mul_left_comm, Nat.div_mul_cancel (Nat.dvd_of_mod_eq_zero heven)]
  rw [phaseIncrement_eq, hexact, roundHalfUp_add_mul _ _ h, roundHalfUp_zero h, zero_add]
  exact Nat.mod_eq_of_lt (Nat.two_pow_pred_lt_two_pow hW)

/-- Settles O27: the table length times the fraction's scale is 2^W, and a further FS adds 2^W to the rounded quotient. -/
theorem phaseIncrementRule : Obligations.PhaseIncrementRule := by
  refine ⟨fun c f hp => ?_, by decide, by decide⟩
  have hpl := c.paramsLegal_iff.1 hp
  have hrate : 0 < c.sampleRate := by omega
  have hW : 0 < c.phaseBits := Nat.add_pos_left hpl.1 _
  have hperiod (g : Nat) := phaseIncrement_add_sampleRate c g hrate
  have hzero := phaseIncrement_zero c hrate
  refine ⟨phaseIncrement_eq c f, hperiod f, hzero, ?_, fun heven => phaseIncrement_half_sampleRate c hrate heven hW⟩
  rw [← hzero, ← hperiod 0, zero_add]

/-- Settles O28: below the wrap the increment is the rounded quotient itself. -/
theorem phaseIncrementWithinHalfUnit : Obligations.PhaseIncrementWithinHalfUnit := by
  intro c f hp hnowrap
  have hpl := c.paramsLegal_iff.1 hp
  rw [phaseIncrement_eq, Nat.mod_eq_of_lt (roundHalfUp_lt hnowrap)]
  exact_mod_cast two_mul_abs_roundHalfUp_sub_le (f * 2 ^ c.phaseBits) (by omega : 0 < c.sampleRate)

/-! The amplitude (41_phase_accumulator.md R166). -/

theorem clampAmp_eq (a : Word) : clampAmp a = min (max a.toInt 0) 65536 := rfl

theorem clampAmp_mem (a : Word) : 0 ≤ clampAmp a ∧ clampAmp a ≤ 65536 := by
  rw [clampAmp_eq]
  omega

/-- Settles O31: the clamp at its lower bound, at its upper bound, and between them. -/
theorem amplitudeClamped : Obligations.AmplitudeClamped := by
  refine ⟨fun a => ⟨fun hlow => ?_, fun hhigh => ?_, fun hlow hhigh => ?_⟩, by decide⟩
  · rw [clampAmp_eq, max_eq_right hlow]
    rfl
  · rw [clampAmp_eq, max_eq_left (by omega), min_eq_right hhigh]
  · rw [clampAmp_eq, max_eq_left hlow.le, min_eq_left hhigh.le]

/-! The code of one sample (41_phase_accumulator.md R167, R168). -/

/-- An amplitude of at most 1.0 takes no sample out of the range it was in. -/
theorem scaleSample_mem {v a : Int} {p : Nat} (hlow : -(p : Int) ≤ v) (hhigh : v ≤ p) (ha : 0 ≤ a) (ha' : a ≤ 65536) :
    -(p : Int) ≤ scaleSample v a ∧ scaleSample v a ≤ p := by
  have hp : (p : Int) * a ≤ p * 65536 := mul_le_mul_of_nonneg_left ha' p.cast_nonneg
  constructor
  · refine (Int.le_ediv_iff_mul_le (by decide)).2 ?_
    calc -(p : Int) * 65536 ≤ -p * a := by linarith
      _ ≤ v * a := mul_le_mul_of_nonneg_right hlow ha
  · refine Int.ediv_le_of_le_mul (by decide) ?_
    calc v * a ≤ p * a := mul_le_mul_of_nonneg_right hhigh ha
      _ ≤ p * 65536 := hp

theorem codeAt_mem (c : Config) (h : c.tableFits = true) (phase amp : Word) :
    (c.mid : Int) - c.peak ≤ codeAt c phase amp ∧ codeAt c phase amp ≤ c.mid + c.peak := by
  obtain ⟨hlow, hhigh⟩ := sineAt_bound c h (tableIndex c phase)
  obtain ⟨ha, ha'⟩ := clampAmp_mem amp
  have := scaleSample_mem hlow hhigh ha ha'
  unfold codeAt
  omega

/-- The two ends of the code range (41_phase_accumulator.md R168). -/
theorem mid_peak_eq (c : Config) (h : 0 < c.dacBits) : c.mid - c.peak = 1 ∧ c.mid + c.peak = 2 ^ c.dacBits - 1 := by
  have hpow : 2 ^ c.dacBits = 2 ^ (c.dacBits - 1) * 2 := (Nat.two_pow_pred_mul_two h).symm
  have hpos : 0 < 2 ^ (c.dacBits - 1) := by positivity
  simp only [Config.mid, Config.peak]
  omega

/-- Settles O25: the code lies in the range as an integer, and the range fits an element. -/
theorem nextSampleInRange : Obligations.NextSampleInRange := by
  intro c phase inc amp hwf
  obtain ⟨hp, hfits⟩ := c.wellFormed_iff.1 hwf
  have hpl := c.paramsLegal_iff.1 hp
  obtain ⟨hmin, hmax⟩ := mid_peak_eq c (by omega)
  have hwidth := c.codeRange_le hp
  obtain ⟨hlow, hhigh⟩ := codeAt_mem c hfits (advancePhase c phase inc) amp
  obtain ⟨n, hn⟩ := Int.eq_ofNat_of_zero_le (show 0 ≤ codeAt c (advancePhase c phase inc) amp by omega)
  have hval : (nextSample c phase inc amp).1.toNat = n := by
    rw [nextSample, hn, BitVec.ofInt_natCast, BitVec.toNat_ofNat, Nat.mod_eq_of_lt (by omega)]
  omega

/-! Successive samples (41_phase_accumulator.md R169). -/

theorem synth_add (c : Config) (inc amp p : Word) (n m : Nat) :
    synth c inc amp p (n + m) = synth c inc amp p n ++ synth c inc amp (phaseAfter c inc p n) m := by
  induction n generalizing p with
  | zero =>
    rw [zero_add]
    rfl
  | succ n ih =>
    rw [Nat.succ_add]
    exact congrArg (_ :: ·) (ih _)

theorem phaseAfter_add (c : Config) (inc p : Word) (n m : Nat) :
    phaseAfter c inc p (n + m) = phaseAfter c inc (phaseAfter c inc p n) m := by
  induction n generalizing p with
  | zero =>
    rw [zero_add]
    rfl
  | succ n ih =>
    rw [Nat.succ_add]
    exact ih _

theorem synth_getElem? (c : Config) (inc amp p : Word) {j n : Nat} (h : j < n) :
    (synth c inc amp p n)[j]? = some (nextSample c (phaseAfter c inc p j) inc amp).1 := by
  obtain ⟨m, rfl⟩ := Nat.exists_eq_add_of_lt h
  rw [add_assoc, synth_add, List.getElem?_append_right (by simp), synth_length, Nat.sub_self]
  rfl

/-- The phase of the sample after `j` others, from any phase, reduced or not. -/
theorem advancePhase_phaseAfter_toNat (c : Config) (h : c.paramsLegal = true) (inc p : Word) (j : Nat) :
    (advancePhase c (phaseAfter c inc p j) inc).toNat = (p.toNat + (j + 1) * inc.toNat) % 2 ^ c.phaseBits := by
  induction j generalizing p with
  | zero =>
    rw [zero_add, one_mul]
    exact advancePhase_toNat c h p inc
  | succ j ih =>
    rw [phaseAfter, ih, advancePhase_toNat c h, Nat.mod_add_mod]
    congr 1
    ring

/-- Settles O26: the samples of a sum append, and the k-th sample is the one after k - 1 others. -/
theorem synthesisIsContinuous : Obligations.SynthesisIsContinuous := by
  refine ⟨fun c inc amp p n m => ⟨synth_add c inc amp p n m, phaseAfter_add c inc p n m⟩,
    fun c inc amp p n k hp hk hkn => ?_⟩
  obtain ⟨j, rfl⟩ := Nat.exists_eq_add_of_le' hk
  rw [Nat.add_sub_cancel, synth_getElem? c inc amp p hkn, ← advancePhase_phaseAfter_toNat c hp]
  rfl

end Sys2Proof.Machine
end

section
/-! The services of 42_buffer_refill.md R196 to R204 and the slots that are no packet: where the ISR has a step, what its
handler does in the Active and in the Finished state, and when it stops the run. -/

namespace Sys2Proof.Machine

/-! Where the PACER and the ISR have no step. -/

theorem exec_evTick_of_running (s : State) (hr : s.running = true) : exec .evTick s = .next (tick s) := if_pos hr

theorem exec_instrOfEvent (s : State) (e : DmaEvent) : exec (instrOfEvent e) s = serviceEvent s e := by
  cases e <;> rfl

theorem serviceEvent_of_nil (s : State) (e : DmaEvent) (hp : s.pending = []) :
    serviceEvent s e = .fault .isrNotEnabled := by
  simp only [serviceEvent, hp]

theorem serviceEvent_of_head_ne (s : State) (e e' : DmaEvent) (hp : s.pending.head? = some e') (hne : e' ≠ e) :
    serviceEvent s e = .fault .eventNotHead := by
  obtain ⟨es, hp⟩ := List.head?_eq_some_iff.1 hp
  simp only [serviceEvent, hp, if_neg hne]

/-- Settles O47: each step is refused by the check that its agent makes first. -/
theorem agentStepsNeedEnabling : Obligations.AgentStepsNeedEnabling := by
  intro s
  refine ⟨fun hr => if_neg (by simp [hr]), fun hp => ⟨?_, ?_⟩, fun hp => ?_, fun hp => ?_⟩
  · exact serviceEvent_of_nil s .ht hp
  · exact serviceEvent_of_nil s .tc hp
  · exact serviceEvent_of_head_ne s .ht .tc hp (by decide)
  · exact serviceEvent_of_head_ne s .tc .ht hp (by decide)

/-! The head's service. -/

theorem exec_service_of_pending (s : State) (e : DmaEvent) (es : List DmaEvent) (hp : s.pending = e :: es) :
    exec (instrOfEvent e) s = .next (handler s.takeEvent e) := by
  simp only [exec_instrOfEvent, serviceEvent, hp, if_true]

theorem handler_of_lastHalf (s : State) (e : DmaEvent) (hl : s.lastHalf = some e.half) : handler s e = autoStop s := if_pos hl

theorem handler_of_lastHalf_ne (s : State) (e : DmaEvent) (hl : s.lastHalf ≠ some e.half) : handler s e = refill s e.half :=
  if_neg hl

/-- Settles O48: the head's handler finds its half in `LAST_HALF` and stops the run. -/
theorem serviceOfLastHalfAutoStops : Obligations.ServiceOfLastHalfAutoStops := by
  intro s e es hp hl
  rw [exec_service_of_pending s e es hp, handler_of_lastHalf s.takeEvent e hl]
  rfl

/-! The slots that are no packet (30_encoding.md R118, 60_exceptions.md R318). -/

theorem runIsr_eq_exec (s : State) (e : DmaEvent) (es : List DmaEvent) (hp : s.pending = e :: es) :
    runIsr s = exec (instrOfEvent e) s := by
  rw [runIsr_of_pending s e es hp, exec_service_of_pending s e es hp]

theorem runIsr_of_nil (s : State) (hp : s.pending = []) : runIsr s = .fault .isrNotEnabled := by
  simp only [runIsr, hp]

theorem FixedOutcomes.get_put_same (f : FixedOutcomes) (r : CollabRequest) (v : Option Bool) : (f.put r v).get r = v := by
  cases r <;> rfl

theorem FixedOutcomes.get_put_other (f : FixedOutcomes) (r r' : CollabRequest) (v : Option Bool) (hne : r' ≠ r) :
    (f.put r v).get r' = f.get r' := by
  cases r <;> cases r' <;> simp [FixedOutcomes.put, FixedOutcomes.get] at hne ⊢

theorem State.outcome_fixOutcome_same (s : State) (r : CollabRequest) (b : Bool) : (s.fixOutcome r b).outcome r = b := by
  simp [State.outcome, FixedOutcomes.get_put_same]

theorem State.outcome_fixOutcome_other (s : State) (r r' : CollabRequest) (b : Bool) (hne : r' ≠ r) :
    (s.fixOutcome r b).outcome r' = s.outcome r' := by
  simp [State.outcome, FixedOutcomes.get_put_other _ _ _ _ hne]

/-- Settles O9: the slot taken off is the ISR's turn or a draw, and an empty schedule idles. -/
theorem otherSlotsOfTheSchedule : Obligations.OtherSlotsOfTheSchedule := by
  refine ⟨fun s rest e es hs hp => ?_, fun s rest hs hp => ?_, fun s rest r b hs => ?_, fun s hs => ?_⟩
  · exact (step_of_schedule s .isr rest hs).trans (runIsr_eq_exec { s with schedule := rest } e es hp)
  · exact (step_of_schedule s .isr rest hs).trans (runIsr_of_nil { s with schedule := rest } hp)
  · exact ⟨State.fixOutcome { s with schedule := rest } r b, step_of_schedule s (.draw r b) rest hs,
      State.outcome_fixOutcome_same _ r b, fun r' hne => State.outcome_fixOutcome_other _ r r' b hne, rfl⟩
  · simp only [step, hs]

/-! A half refilled (42_buffer_refill.md R200, R201). -/

/-- The elements of a half read as stored there. -/
theorem bufAt_storeHalf (s : State) (h : Half) (codes : List Sample) (hlen : codes.length = s.cfg.half) (j : Nat)
    (hj : j < s.cfg.half) : some ((s.storeSamples (halfBase s.cfg h) codes).bufAt (halfBase s.cfg h + j)) = codes[j]? := by
  have hget := List.getElem?_eq_getElem (hlen ▸ hj)
  rw [hget, State.bufAt_storeSamples_inside s _ codes j _ hget]

/-- A store of one half leaves every byte outside it. -/
theorem sameBytesOutside_storeHalf (s : State) (h : Half) (codes : List Sample) (hlen : codes.length = s.cfg.half) :
    sameBytesOutside s (s.storeSamples (halfBase s.cfg h) codes) (halfBase s.cfg h) s.cfg.half := fun a ha =>
  s.byteAt_storeSamples_outside _ codes a (hlen ▸ ha)

/-- Settles O50: the handler of any other event is the refill of the Finished state. -/
theorem finishedServiceFillsMidScale : Obligations.FinishedServiceFillsMidScale := by
  intro s e es hp hf hl
  have hrefill : handler s.takeEvent e = refillFinished s.takeEvent e.half :=
    (handler_of_lastHalf_ne s.takeEvent e hl).trans (refill_of_finished s.takeEvent e.half hf)
  have hlen := List.length_replicate (n := s.cfg.half) (a := midSample s.cfg)
  refine ⟨refillFinished s.takeEvent e.half, hrefill ▸ exec_service_of_pending s e es hp, fun j hj => ?_,
    sameBytesOutside_storeHalf s.takeEvent e.half _ hlen, ?_⟩
  · have hbuf := bufAt_storeHalf s.takeEvent e.half _ hlen j hj
    rw [List.getElem?_replicate_of_lt hj] at hbuf
    exact Option.some.inj hbuf
  · obtain rfl : s.pending.tail = es := congrArg List.tail hp
    rfl

/-- Every refill in the Active state fills the half, carries the phase on, and beside that writes the cursor alone. -/
theorem refill_active_frame (s : State) (h : Half) (hs : Armed s) (ha : s.seqState = .active) :
    ∃ q k r l, refill s h = { filled s h with seqState := q, stepIndex := k, remain := r, lastHalf := l } := by
  rcases Armed.remain_cases s hs ha with hn | ⟨hn, hk⟩ | ⟨hn, hk, hloop⟩ | ⟨hn, hk, hhalt⟩
  · exact ⟨_, _, _, _, refill_stays s h ha hn⟩
  · exact ⟨_, _, _, _, refill_toNextStep s h ha hn hk⟩
  · exact ⟨_, _, _, _, refill_loops s h ha hn hk hloop⟩
  · exact ⟨_, _, _, _, refill_finishes s h ha hn hk hhalt⟩

/-- A sequencer is Active only while Running (10_state.md R55, INV2). -/
theorem Consistent.running_of_active {s : State} (h : Consistent s) (ha : s.seqState = .active) : s.running = true := by
  obtain ⟨_, ⟨_, h2, _⟩, _⟩ := h
  by_contra hr
  obtain ⟨hq, _⟩ := h2 (by simpa using hr)
  rcases hq with hq | hq <;> simp [ha] at hq

/-- INV6: no last half is recorded in the Active state, so its services refill. -/
theorem Consistent.handler_of_active {s : State} (h : Consistent s) (ha : s.seqState = .active) (e : DmaEvent) :
    handler s.takeEvent e = refill s.takeEvent e.half := by
  obtain ⟨_, ⟨_, _, _, _, _, h6, _⟩, _⟩ := h
  exact handler_of_lastHalf_ne s.takeEvent e (by simp [h6 ha])

theorem remain_sub_half_toNat (r : DWord) (n : Nat) (hn : n < r.toNat) : (r - BitVec.ofNat 64 n).toNat = r.toNat - n := by
  have := r.isLt
  simp only [BitVec.toNat_sub, BitVec.toNat_ofNat]
  omega

theorem stepIndex_succ_toNat (k n : BitVec 8) (hk : k.toNat + 1 < n.toNat) : (k + 1#8).toNat = k.toNat + 1 := by
  have := n.isLt
  simp only [BitVec.toNat_add, BitVec.toNat_ofNat]
  omega

/-- Settles O49: the handler refills its half, and the refill's `advance` ends in one of four ways. -/
theorem activeServiceRefills : Obligations.ActiveServiceRefills := by
  intro s e es h hp ha
  obtain ⟨q, k, r, l, ht⟩ :=
    refill_active_frame s.takeEvent e.half (Consistent.armed s h (h.running_of_active ha)) ha
  have hlen := synth_length s.cfg (s.seqAt s.stepIndex.toNat).inc (s.seqAt s.stepIndex.toNat).amp s.phase s.cfg.half
  refine ⟨_, h.handler_of_active ha e ▸ exec_service_of_pending s e es hp, ?_, ?_, ?_, fun hn => ?_, fun hn hk => ?_,
    fun hn hk hloop => ?_, fun hn hk hhalt => ?_, ?_⟩
  · exact ht ▸ bufAt_storeHalf s.takeEvent e.half _ hlen
  · exact ht ▸ sameBytesOutside_storeHalf s.takeEvent e.half _ hlen
  · exact congrArg (fun t : State => t.phase) ht
  · rw [refill_stays s.takeEvent e.half ha hn]
    exact ⟨ha, rfl, remain_sub_half_toNat s.remain s.cfg.half hn, rfl⟩
  · rw [refill_toNextStep s.takeEvent e.half ha hn hk]
    exact ⟨ha, stepIndex_succ_toNat s.stepIndex s.seqCount hk, rfl, rfl⟩
  · rw [refill_loops s.takeEvent e.half ha hn hk.not_lt hloop]
    exact ⟨ha, rfl, rfl, rfl⟩
  · rw [refill_finishes s.takeEvent e.half ha hn hk.not_lt hhalt]
    exact ⟨rfl, rfl, rfl, rfl⟩
  · obtain rfl : s.pending.tail = es := congrArg List.tail hp
    rw [ht]
    rfl

end Sys2Proof.Machine
end

section
/-! The ticks of 42_buffer_refill.md R190 to R194 and R205: the whole effect of one tick, then of the ticks that read one half
of the buffer. A half is named by the event that its last tick raises. -/

namespace Sys2Proof.Machine

/-! One tick (42_buffer_refill.md R192). -/

theorem noteUnderrun_frame (s : State) : ∃ u f, noteUnderrun s = { s with underrun := u, faults := f } := by
  unfold noteUnderrun
  split
  · exact ⟨_, _, rfl⟩
  · exact ⟨_, _, rfl⟩

theorem transfer_frame (s : State) : ∃ d0 d1 tr, transfer s = { s with dacOut0 := d0, dacOut1 := d1, trace := tr } := by
  unfold transfer State.emit
  cases s.channel with
  | ch0 => exact ⟨_, _, _, rfl⟩
  | ch1 => exact ⟨_, _, _, rfl⟩

theorem raiseEvent_frame (s : State) (e : DmaEvent) : ∃ p, s.raiseEvent e = { s with pending := p } := by
  unfold State.raiseEvent
  split
  · exact ⟨_, rfl⟩
  · exact ⟨_, rfl⟩

theorem tickEvents_frame (s : State) : ∃ p, tickEvents s = { s with pending := p } := by
  obtain ⟨p, hht⟩ := raiseEvent_frame s .ht
  obtain ⟨q, htc⟩ := raiseEvent_frame s .tc
  obtain ⟨r, hboth⟩ := raiseEvent_frame (s.raiseEvent .ht) .tc
  unfold tickEvents
  split_ifs
  · exact ⟨r, by rw [hboth, hht]⟩
  · exact ⟨p, hht⟩
  · exact ⟨q, htc⟩
  · exact ⟨_, rfl⟩

/-- The fields that a tick can write. -/
theorem tick_frame (s : State) :
    tick s = { s with
      dacOut0 := (tick s).dacOut0, dacOut1 := (tick s).dacOut1, trace := (tick s).trace, dmaPos := (tick s).dmaPos
      pending := (tick s).pending, underrun := (tick s).underrun, faults := (tick s).faults } := by
  obtain ⟨u, f, hu⟩ := noteUnderrun_frame s
  obtain ⟨d0, d1, tr, ht⟩ := transfer_frame (noteUnderrun s)
  obtain ⟨p, hp⟩ := tickEvents_frame (transfer (noteUnderrun s))
  unfold tick
  rw [hp, ht, hu]

theorem tick_dmaPos_toNat (s : State) (hp : s.cfg.paramsLegal = true) :
    (tick s).dmaPos.toNat = (s.dmaPos.toNat + 1) % s.cfg.bufferSize := nextPos_toNat s.cfg hp s.dmaPos

theorem tick_epoch (s : State) : (tick s).epoch = s.epoch := congrArg Outside.epoch (tick_toOutside s)

theorem tick_byteAt (s : State) (a : Nat) : (tick s).byteAt a = s.byteAt a :=
  State.byteAt_congr s (tick s) (tick_mem s) (tick_epoch s) a

theorem tick_bufAt (s : State) (j : Nat) : (tick s).bufAt j = s.bufAt j :=
  State.bufAt_congr s (tick s) (tick_mem s) (tick_epoch s) j

/-- At the last element of a half its event is raised, or merged with the pending one (42_buffer_refill.md R193). -/
theorem tick_pending_eq (s : State) (hp : s.cfg.paramsLegal = true) :
    (tick s).pending =
      if s.dmaPos.toNat = s.cfg.half - 1 ∧ DmaEvent.ht ∉ s.pending then s.pending ++ [.ht]
      else if s.dmaPos.toNat = s.cfg.bufferSize - 1 ∧ DmaEvent.tc ∉ s.pending then s.pending ++ [.tc]
      else s.pending := by
  have hB := s.cfg.two_mul_half hp
  have hH := s.cfg.half_pos hp
  rw [tick_pending]
  unfold tickEvents
  by_cases hht : s.dmaPos.toNat + 1 = s.cfg.half
  · have hpos : s.dmaPos.toNat = s.cfg.half - 1 := by omega
    have hnot : ¬s.dmaPos.toNat + 1 = s.cfg.bufferSize := by omega
    have hnot' : ¬s.dmaPos.toNat = s.cfg.bufferSize - 1 := by omega
    simp only [if_pos hht, if_neg hnot, raiseEvent_pending, hpos.symm, hnot', true_and, false_and, if_false, ite_not]
  · have hpos : ¬s.dmaPos.toNat = s.cfg.half - 1 := by omega
    have htc : s.dmaPos.toNat + 1 = s.cfg.bufferSize ↔ s.dmaPos.toNat = s.cfg.bufferSize - 1 := by omega
    by_cases hlast : s.dmaPos.toNat = s.cfg.bufferSize - 1
    · simp only [if_neg hht, if_pos (htc.2 hlast), hpos, hlast.symm, raiseEvent_pending, true_and, false_and, if_false,
        ite_not]
    · simp only [if_neg hht, if_neg (mt htc.1 hlast), hpos, hlast, false_and, if_false]

/-- Settles O46: the tick's record of a deadline miss, its transfer and its events, each in its own fields. -/
theorem tickTransfersOneElement : Obligations.TickTransfersOneElement := by
  refine ⟨rfl, fun s hp hr => ⟨tick s, exec_evTick_of_running s hr, ?_, fun ch hne => ?_, ?_, tick_dmaPos_toNat s hp,
    tick_pending_eq s hp, fun hu => ?_, fun hu => ?_, tick_byteAt s, tick_frame s⟩⟩
  · rw [tick_dacOut, if_pos rfl, dacCode_toNat s.cfg hp]
  · rw [tick_dacOut, if_neg hne]
  · rw [tick_trace, tick_dacOut, if_pos rfl]
  · have hat := (s.underrunAt_iff s.dmaPos.toNat).2 hu
    exact ⟨by rw [tick_underrun, hat, Bool.true_or], by rw [tick_faults, if_pos hat]; rfl⟩
  · have hat : s.underrunAt s.dmaPos.toNat = false := by
      rwa [← State.underrunAt_iff, Bool.not_eq_true] at hu
    exact ⟨by rw [tick_underrun, hat, Bool.false_or], by rw [tick_faults, hat, if_neg Bool.false_ne_true]⟩

/-! A tick by its position in a half. -/

/-- The event of the other half. -/
def DmaEvent.other : DmaEvent → DmaEvent
  | .ht => .tc
  | .tc => .ht

theorem DmaEvent.other_ne (e : DmaEvent) : e.other ≠ e := by cases e <;> decide

theorem DmaEvent.other_other (e : DmaEvent) : e.other.other = e := by cases e <;> rfl

/-- After a half the DMA is at the start of the other one (42_buffer_refill.md R190). -/
theorem halfBase_add_half (c : Config) (hp : c.paramsLegal = true) (e : DmaEvent) :
    (halfBase c e.half + c.half) % c.bufferSize = halfBase c e.other.half := by
  have hB := c.two_mul_half hp
  have hH := c.half_pos hp
  cases e with
  | ht => exact (Nat.mod_eq_of_lt (by simp only [halfBase, DmaEvent.half]; omega)).trans (Nat.zero_add _)
  | tc => simp only [halfBase, DmaEvent.half, DmaEvent.other, ← two_mul, ← hB, Nat.mod_self]

/-- Reading a half is late exactly while its event is pending (42_buffer_refill.md R194). -/
theorem underrunAt_in_half (s : State) (e : DmaEvent) (k : Nat) (hk : k < s.cfg.half) :
    s.underrunAt (halfBase s.cfg e.half + k) = decide (e ∈ s.pending) := by
  rw [Bool.eq_iff_iff, State.underrunAt_iff, decide_eq_true_iff]
  cases e with
  | ht => simp [halfBase, DmaEvent.half, hk]
  | tc => simp [halfBase, DmaEvent.half]

/-- Within a half only the last tick raises an event, the half's own. -/
theorem tick_pending_in_half (s : State) (hp : s.cfg.paramsLegal = true) (e : DmaEvent) (k : Nat) (hk : k < s.cfg.half)
    (hpos : s.dmaPos.toNat = halfBase s.cfg e.half + k) (he : e ∉ s.pending) :
    (tick s).pending = if k + 1 = s.cfg.half then s.pending ++ [e] else s.pending := by
  have hB := s.cfg.two_mul_half hp
  rw [tick_pending_eq s hp]
  cases e with
  | ht =>
    simp only [halfBase, DmaEvent.half] at hpos
    have hlast : s.dmaPos.toNat = s.cfg.half - 1 ↔ k + 1 = s.cfg.half := by omega
    have hnot : ¬s.dmaPos.toNat = s.cfg.bufferSize - 1 := by omega
    simp only [hlast, hnot, he, not_false_eq_true, and_true, false_and, if_false]
  | tc =>
    simp only [halfBase, DmaEvent.half] at hpos
    have hnot : ¬s.dmaPos.toNat = s.cfg.half - 1 := by omega
    have hlast : s.dmaPos.toNat = s.cfg.bufferSize - 1 ↔ k + 1 = s.cfg.half := by omega
    simp only [hlast, hnot, he, not_false_eq_true, and_true, false_and, if_false]

/-! Ticks in a row. -/

/-- What every tick keeps, ticks in a row keep. -/
theorem iterate_tick_kept {α : Type} (f : State → α) (hf : ∀ s, f (tick s) = f s) (n : Nat) (s : State) :
    f (tick^[n] s) = f s := congrFun (Function.iterate_invariant (funext hf) n) s

theorem iterate_tick_cfg (n : Nat) (s : State) : (tick^[n] s).cfg = s.cfg := iterate_tick_kept (fun t => t.cfg) tick_cfg n s

theorem iterate_tick_channel (n : Nat) (s : State) : (tick^[n] s).channel = s.channel :=
  iterate_tick_kept (fun t => t.channel) tick_channel n s

theorem iterate_tick_byteAt (n : Nat) (s : State) (a : Nat) : (tick^[n] s).byteAt a = s.byteAt a :=
  iterate_tick_kept (fun t => t.byteAt a) (fun t => tick_byteAt t a) n s

theorem iterate_tick_bufAt (n : Nat) (s : State) (j : Nat) : (tick^[n] s).bufAt j = s.bufAt j :=
  iterate_tick_kept (fun t => t.bufAt j) (fun t => tick_bufAt t j) n s

theorem iterate_tick_dmaPos (s : State) (hp : s.cfg.paramsLegal = true) (hpos : s.dmaPos.toNat < s.cfg.bufferSize) (n : Nat) :
    (tick^[n] s).dmaPos.toNat = (s.dmaPos.toNat + n) % s.cfg.bufferSize := by
  induction n with
  | zero => exact (Nat.mod_eq_of_lt hpos).symm
  | succ n ih =>
    rw [Function.iterate_succ_apply', tick_dmaPos_toNat _ (by rwa [iterate_tick_cfg]), iterate_tick_cfg, ih, Nat.mod_add_mod,
      Nat.add_assoc]

/-- The schedule stands beside a tick (Laws/Outside.lean). -/
theorem tick_withSchedule (s : State) (x : List Slot) : tick { s with schedule := x } = { tick s with schedule := x } :=
  (tick_beside s x s.readData).trans (by simp [State.beside])

theorem iterate_tick_withSchedule (n : Nat) (s : State) (x : List Slot) :
    tick^[n] { s with schedule := x } = { tick^[n] s with schedule := x } := by
  have hcomm : Function.Semiconj (fun t : State => { t with schedule := x }) tick tick := fun t => (tick_withSchedule t x).symm
  exact (hcomm.iterate_right n s).symm

theorem step_of_tickSlot (s : State) (rest : List Slot) (hr : s.running = true) (hs : s.schedule = tickSlot :: rest) :
    step s = .next { tick s with schedule := rest } := by
  rw [step_of_schedule s tickSlot rest hs, ← tick_withSchedule]
  exact exec_evTick_of_running { s with schedule := rest } hr

/-- A Running block with `n` ticks scheduled runs them all. -/
theorem run_tickSlots (n : Nat) (s : State) (hr : s.running = true) (hs : s.schedule = List.replicate n tickSlot) :
    Sys2Proof.core.run n s = .next { tick^[n] s with schedule := [] } := by
  induction n generalizing s with
  | zero =>
    have hself : s = { s with schedule := [] } := congrArg (fun x => { s with schedule := x }) hs
    exact congrArg Host.Outcome.next hself
  | succ n ih =>
    have hstep : Sys2Proof.core.step s = .next { tick s with schedule := List.replicate n tickSlot } :=
      step_of_tickSlot s _ hr hs
    calc Sys2Proof.core.run (n + 1) s
        = Sys2Proof.core.run n { tick s with schedule := List.replicate n tickSlot } := by simp only [Host.Core.run, hstep]
      _ = .next { tick^[n] { tick s with schedule := List.replicate n tickSlot } with schedule := [] } :=
        ih _ ((tick_running s).trans hr) rfl
      _ = .next { tick^[n + 1] s with schedule := [] } := by rw [iterate_tick_withSchedule, Function.iterate_succ_apply]

/-! The ticks that read one half, from its start and with its event not pending. -/

section

variable {s : State} {e : DmaEvent} (hp : s.cfg.paramsLegal = true) (hpos : s.dmaPos.toNat = halfBase s.cfg e.half)
  (he : e ∉ s.pending)

include hp hpos

theorem ticks_in_half_dmaPos {k : Nat} (hk : k < s.cfg.half) : (tick^[k] s).dmaPos.toNat = halfBase s.cfg e.half + k := by
  have hle := halfBase_le s.cfg hp e.half
  rw [iterate_tick_dmaPos s hp (by omega), hpos, Nat.mod_eq_of_lt (by omega)]

theorem ticks_of_half_dmaPos : (tick^[s.cfg.half] s).dmaPos.toNat = halfBase s.cfg e.other.half := by
  have hle := halfBase_le s.cfg hp e.half
  have hH := s.cfg.half_pos hp
  rw [iterate_tick_dmaPos s hp (by omega), hpos, halfBase_add_half s.cfg hp]

theorem ticks_in_half_trace {k : Nat} (hk : k ≤ s.cfg.half) :
    (tick^[k] s).trace =
      s.trace ++ (List.range k).map fun j => (s.channel, dacCode s.cfg (s.bufAt (halfBase s.cfg e.half + j))) := by
  induction k with
  | zero => simp
  | succ k ih =>
    rw [Function.iterate_succ_apply', tick_trace, ih (by omega), ticks_in_half_dmaPos hp hpos hk, iterate_tick_channel,
      iterate_tick_cfg, iterate_tick_bufAt, List.range_succ, List.map_append, List.append_assoc]
    rfl

include he

theorem ticks_in_half_pending {k : Nat} (hk : k < s.cfg.half) : (tick^[k] s).pending = s.pending := by
  induction k with
  | zero => rfl
  | succ k ih =>
    have ih := ih (by omega)
    have hcfg := iterate_tick_cfg k s
    have hk' := ticks_in_half_dmaPos hp hpos (k := k) (by omega)
    rw [Function.iterate_succ_apply',
      tick_pending_in_half (tick^[k] s) (hcfg ▸ hp) e k (by rw [hcfg]; omega) (hcfg ▸ hk') (ih ▸ he), hcfg,
      if_neg hk.ne, ih]

/-- The last tick of the half raises its event (42_buffer_refill.md R193). -/
theorem ticks_of_half_pending : (tick^[s.cfg.half] s).pending = s.pending ++ [e] := by
  obtain ⟨k, hk⟩ := Nat.exists_eq_add_one.2 (s.cfg.half_pos hp)
  have hlt : k < s.cfg.half := by omega
  have hcfg := iterate_tick_cfg k s
  have hpend := ticks_in_half_pending hp hpos he hlt
  rw [hk, Function.iterate_succ_apply', tick_pending_in_half (tick^[k] s) (hcfg ▸ hp) e k (hcfg ▸ hlt)
    (hcfg ▸ ticks_in_half_dmaPos hp hpos hlt) (hpend ▸ he), hcfg, if_pos hk.symm, hpend]

/-- No tick of the half is late: its event is not pending until its last tick (42_buffer_refill.md R194). -/
theorem ticks_in_half_not_late {k : Nat} (hk : k < s.cfg.half) :
    (tick^[k] s).underrunAt (tick^[k] s).dmaPos.toNat = false := by
  have hcfg := iterate_tick_cfg k s
  have hlate := underrunAt_in_half (tick^[k] s) e k (hcfg ▸ hk)
  rw [hcfg, ticks_in_half_pending hp hpos he hk, decide_eq_false he] at hlate
  rw [ticks_in_half_dmaPos hp hpos hk, hlate]

theorem ticks_in_half_underrun {k : Nat} (hk : k ≤ s.cfg.half) : (tick^[k] s).underrun = s.underrun := by
  induction k with
  | zero => rfl
  | succ k ih =>
    rw [Function.iterate_succ_apply', tick_underrun, ticks_in_half_not_late hp hpos he hk, Bool.false_or, ih (by omega)]

theorem ticks_in_half_faults {k : Nat} (hk : k ≤ s.cfg.half) : (tick^[k] s).faults = s.faults := by
  induction k with
  | zero => rfl
  | succ k ih =>
    rw [Function.iterate_succ_apply', tick_faults, ticks_in_half_not_late hp hpos he hk, if_neg Bool.false_ne_true,
      ih (by omega)]

/-- The tick after the half is late exactly if the other half's event is pending (42_buffer_refill.md R194). -/
theorem ticks_of_half_late :
    (tick^[s.cfg.half] s).underrunAt (tick^[s.cfg.half] s).dmaPos.toNat = decide (e.other ∈ s.pending) := by
  have hcfg := iterate_tick_cfg s.cfg.half s
  have hlate := underrunAt_in_half (tick^[s.cfg.half] s) e.other 0 (hcfg.symm ▸ s.cfg.half_pos hp)
  rw [Nat.add_zero, hcfg, ticks_of_half_pending hp hpos he] at hlate
  rw [ticks_of_half_dmaPos hp hpos, hlate]
  simp [e.other_ne]

end

/-- Settles O52: the ticks of the half that `e` names, with nothing pending at its start. -/
theorem ticksPlayOneHalf : Obligations.TicksPlayOneHalf := by
  intro s e hp hr hpend hpos hs
  have he : e ∉ s.pending := hpend ▸ List.not_mem_nil
  refine ⟨_, run_tickSlots s.cfg.half s hr hs, ticks_in_half_trace hp hpos le_rfl, ?_, ?_,
    ticks_in_half_underrun hp hpos he le_rfl, ticks_in_half_faults hp hpos he le_rfl, iterate_tick_byteAt s.cfg.half s⟩
  · exact (ticks_of_half_pending hp hpos he).trans (by rw [hpend, List.nil_append])
  · exact (ticks_of_half_dmaPos hp hpos).trans (halfBase_add_half s.cfg hp e).symm

/-- Settles O51: the DMA reads the other half first, and no tick of it is late; the next tick is, for the half it comes to
still has its event pending. -/
theorem deadlineMissedExactlyPastDeadline : Obligations.DeadlineMissedExactlyPastDeadline := by
  intro s e n hp hr hpend hstart hunder hmiss hn hs
  have hpos : s.dmaPos.toNat = halfBase s.cfg e.other.half := by cases e <;> exact hstart
  have he : e.other ∉ s.pending := by simp [hpend, e.other_ne]
  refine ⟨_, run_tickSlots n s hr hs, rfl, ?_⟩
  rcases Nat.le_or_eq_of_le_succ hn with hin | rfl
  · have hintime : decide (n = s.cfg.half + 1) = false := decide_eq_false (by omega)
    rw [hintime]
    exact ⟨(ticks_in_half_underrun hp hpos he hin).trans hunder,
      (congrArg FaultSet.deadlineMiss (ticks_in_half_faults hp hpos he hin)).trans hmiss⟩
  · have hlate := ticks_of_half_late hp hpos he
    rw [e.other_other, hpend, decide_eq_true (List.mem_singleton_self e)] at hlate
    simp [Function.iterate_succ_apply', tick_underrun, tick_faults, hlate, FaultSet.add]

end Sys2Proof.Machine
end

section
/-! 42_buffer_refill.md R209: a LOOP block is never Finished (10_state.md R55, INV5), so no half is ever the last one, no service
stops the run, and only a command or the reset can. -/

namespace Sys2Proof.Machine

/-- INV5: a Finished sequencer is one of a HALT configuration. -/
theorem Consistent.not_finished_of_loop {s : State} (h : Consistent s) (hloop : s.cfg.endPolicy = .loop) :
    s.seqState ≠ .finished := by
  obtain ⟨_, ⟨_, _, _, _, h5, _⟩, _⟩ := h
  intro hf
  obtain ⟨_, _, hhalt⟩ := h5 hf
  simp [hloop] at hhalt

/-- INV1, INV2 and INV6: neither an Idle block nor an Active one has a last half. -/
theorem Consistent.lastHalf_of_loop {s : State} (h : Consistent s) (hloop : s.cfg.endPolicy = .loop) : s.lastHalf = none := by
  have hnot := h.not_finished_of_loop hloop
  obtain ⟨_, ⟨h1, h2, _, _, _, h6, _⟩, _⟩ := h
  cases hr : s.running with
  | false =>
    obtain ⟨_, _, _, hl, _⟩ := h2 hr
    exact hl
  | true => exact h6 ((h1 hr).resolve_right hnot)

/-- The commands that can end a run (44_controller.md R261, R263). -/
theorem executeCommand_running (s : State) (v : Word) :
    (executeCommand s v).running = s.running ∨ s.running = false ∨ decode (.cmd v) = .ok .stopOutput ∨
      decode (.cmd v) = .ok .init := by
  have hdecode : ∀ k, decodeCmd v = k → decode (.cmd v) = k.toInstr := fun k hk => congrArg Command.toInstr hk
  unfold executeCommand
  cases hk : decodeCmd v with
  | init => exact .inr (.inr (.inr (hdecode _ hk)))
  | setSequence n => exact .inl (doSetSequence_running s _)
  | startOutput ch =>
    cases hr : s.running with
    | false => exact .inr (.inl rfl)
    | true => exact .inl ((congrArg (fun t : State => t.running) (doStartOutput_whenRunning s ch hr)).trans hr)
  | stopOutput => exact .inr (.inr (.inl (hdecode _ hk)))
  | isRunning => exact .inl (doIsRunning_running s)
  | illegal opc => exact .inl (doIllegal_running s opc)

theorem memWrite_running (s : State) (addr : Nat) (v : Word) (h0 : addr ≠ 0) : (memWrite s addr v).running = s.running := by
  unfold memWrite
  rw [if_neg h0]
  split <;> rfl

/-- A Running block with no last half goes on running under every cause but a reset, `STOP_OUTPUT` and `INIT`. -/
theorem Cause.running_of_lastHalf_none {slot : Slot} {r t : State} (hcause : Cause slot r t) (hl : r.lastHalf = none)
    (hr : r.running = true) :
    t.running = true ∨ slot = .reset ∨ presentsCommand slot .stopOutput ∨ presentsCommand slot .init := by
  cases hcause with
  | draw q ok _ ht => exact .inl (ht ▸ hr)
  | reset hs _ => exact .inr (.inl hs)
  | command v hs ht =>
    have hpresents : ∀ i, decode (.cmd v) = .ok i → presentsCommand slot i := fun i hd =>
      hs.imp (fun hcmd => ⟨_, hcmd, hd⟩) (fun hwr => ⟨v, hwr, hd⟩)
    rcases executeCommand_running r v with hkept | hidle | hstop | hinit
    · exact .inl (ht ▸ hkept.trans hr)
    · exact absurd (hr.symm.trans hidle) (by decide)
    · exact .inr (.inr (.inl (hpresents _ hstop)))
    · exact .inr (.inr (.inr (hpresents _ hinit)))
  | tick _ _ ht => exact .inl (ht ▸ (tick_running r).trans hr)
  | service e _ _ ht =>
    have hrefill : handler r.takeEvent e = refill r.takeEvent e.half := handler_of_lastHalf_ne r.takeEvent e (by simp [hl])
    exact .inl (ht ▸ hrefill ▸ (refill_running r.takeEvent e.half).trans hr)
  | read size off _ ht => exact .inl (ht ▸ hr)
  | write off v _ h0 ht => exact .inl (ht ▸ (memWrite_running r _ v h0).trans hr)

/-- Settles O24: the step's state is consistent and its configuration LOOP, and no cause but the three stops the run. -/
theorem loopNeverAutoStops : Obligations.LoopNeverAutoStops := by
  intro s t h hloop hr hstep
  have ht : Consistent t := step_consistent s t hstep h
  have htloop : t.cfg.endPolicy = .loop := (congrArg Config.endPolicy (stepKeepsConfiguration s t hstep)).trans hloop
  refine ⟨ht.not_finished_of_loop htloop, ht.lastHalf_of_loop htloop, ?_⟩
  rcases step_cause s t hstep with ⟨_, rfl⟩ | ⟨slot, rest, hs, hcause⟩
  · exact .inl hr
  · exact (hcause.running_of_lastHalf_none (h.lastHalf_of_loop hloop) hr).imp_right fun hslot => ⟨slot, rest, hs, hslot⟩

end Sys2Proof.Machine
end

section
/-! Durations and `SET_SEQUENCE` (43_step_sequencer.md R230 to R233, 44_controller.md R264): the accepted durations, the samples
they stand for, and the two outcomes of the command. -/

namespace Sys2Proof.Machine

/-! Durations (43_step_sequencer.md R231, R232). -/

/-- A duration of 0 is the only multiple of a half's duration that is not a positive one. -/
theorem durationOk_iff_positive_multiple (c : Config) (d : Word) (hp : c.paramsLegal = true) :
    durationOk c d = true ↔ ∃ m, 0 < m ∧ d.toNat * c.sampleRate = m * (c.half * 1000000) := by
  have hpl := c.paramsLegal_iff.1 hp
  have hrate : 0 < c.sampleRate := by omega
  have hhalf : 0 < c.half * 1000000 := Nat.mul_pos (c.half_pos hp) (by norm_num)
  rw [durationOk_iff, ← Nat.dvd_iff_mod_eq_zero, dvd_iff_exists_eq_mul_left]
  constructor
  · rintro ⟨hd, m, hm⟩
    exact ⟨m, Nat.pos_of_mul_pos_right (hm ▸ Nat.mul_pos hd hrate), hm⟩
  · rintro ⟨m, hm, heq⟩
    exact ⟨Nat.pos_of_mul_pos_right (heq ▸ Nat.mul_pos hm hhalf), m, heq⟩

/-- Settles O29: the rule for every duration, and the rule's examples by evaluation. -/
theorem durationOkIsPositiveMultiple : Obligations.DurationOkIsPositiveMultiple :=
  ⟨durationOk_iff_positive_multiple, by decide, by decide, by decide, by decide, by decide, by decide, by decide, by decide⟩

/-- The quotient of a 32-bit duration and a legal sample rate fits `SAMPLES`. -/
theorem stepSamples_toNat (c : Config) (d : Word) (hp : c.paramsLegal = true) :
    (stepSamples c d).toNat = d.toNat * c.sampleRate / 1000000 := by
  have hpl := c.paramsLegal_iff.1 hp
  have hlt : d.toNat * c.sampleRate < 2 ^ 32 * 2 ^ 32 := Nat.mul_lt_mul'' d.isLt (by omega)
  rw [stepSamples, BitVec.toNat_ofNat]
  exact Nat.mod_eq_of_lt (by omega)

/-- Settles O30: a whole number of halves lasts a whole number of samples, so the quotient leaves no remainder. -/
theorem stepSamplesExact : Obligations.StepSamplesExact := by
  refine ⟨fun c d hp hd => ⟨?_, stepSamples_whole_halves c d hp hd⟩, by decide, by decide, by decide⟩
  obtain ⟨m, _, heq⟩ := (durationOk_iff_positive_multiple c d hp).1 hd
  rw [stepSamples_toNat c d hp, heq, ← mul_assoc, Nat.mul_div_cancel _ (by norm_num)]

/-! `SET_SEQUENCE` (43_step_sequencer.md R230, R233). -/

theorem configureOk_eq_false_iff (s : State) (n : Nat) :
    configureOk s n = false ↔ n = 0 ∨ s.cfg.maxSteps < n ∨ ∃ k, k < n ∧ durationOk s.cfg (s.stageAt k).dur = false := by
  rw [← Bool.not_eq_true, configureOk_iff]
  simp only [not_and_or, Nat.pos_iff_ne_zero, not_not, not_le, not_forall, Bool.not_eq_true, exists_prop]

/-- Settles O37: the checks that fail raise, and a raise writes `RESULT` alone. -/
theorem setSequenceRejects : Obligations.SetSequenceRejects := by
  refine fun s n => ⟨fun hr => ?_, fun hr hrejected => ?_⟩
  · exact congrArg Host.Outcome.next (doSetSequence_whenRunning s n.toNat hr)
  · exact congrArg Host.Outcome.next (doSetSequence_rejected s n.toNat hr ((configureOk_eq_false_iff s n.toNat).2 hrejected))

/-- Settles O36: the checks pass, so the command commits, and the commit writes the sequence entry by entry. -/
theorem setSequenceCommits : Obligations.SetSequenceCommits := by
  intro s n hr hpos hmax hdur
  have hok : configureOk s n.toNat = true := (configureOk_iff s n.toNat).2 ⟨hpos, hmax, hdur⟩
  have hseq := fun k => configureCommit_seqAt s n.toNat k hmax
  have hframe : configureCommit s n.toNat =
      { s with seq := (configureCommit s n.toNat).seq, seqCount := n, seqState := .configured } := by
    simp [configureCommit]
  refine ⟨(configureCommit s n.toNat).ok opcSetSequence false,
    congrArg Host.Outcome.next (doSetSequence_accepted s n.toNat hr hok), fun k hk => ?_, fun k hk => ?_, ?_, ?_⟩
  · exact (hseq k).trans (if_pos hk)
  · exact (hseq k).trans (if_neg hk.not_gt)
  · simp [configureCommit]
  · exact congrArg (State.ok · opcSetSequence false) hframe

end Sys2Proof.Machine
end

section
/-! The transitions of `SEQ_STATE` (43_step_sequencer.md R238). Each operation that can change it does so along one row of the
rule's table; a step then takes its row from its cause. -/

namespace Sys2Proof.Machine

/-- The ISR has an event only while Running (10_state.md R55, INV2). -/
theorem Consistent.running_of_pending {s : State} (h : Consistent s) {e : DmaEvent} (he : s.pending.head? = some e) :
    s.running = true := by
  obtain ⟨_, ⟨_, h2, _⟩, _⟩ := h
  by_contra hr
  obtain ⟨_, hpend, _⟩ := h2 (by simpa using hr)
  simp [hpend] at he

/-! The operations that can change `SEQ_STATE`. -/

theorem doInit_seqState (s : State) : (doInit s).seqState = .notConfigured := by
  unfold doInit
  split <;> rfl

/-- INV3: the stop asks `SEQ_COUNT` whether a sequence is stored, and so does NotConfigured. -/
theorem stopEffects_changes_seqState (s : State) (h : Consistent s) (hne : s.stopEffects.seqState ≠ s.seqState) :
    s.stopEffects.seqState = .configured ∧ (s.seqState = .active ∨ s.seqState = .finished) := by
  obtain ⟨_, ⟨_, _, h3, _⟩, _⟩ := h
  rw [State.stopEffects_seqState] at hne ⊢
  split at hne
  · next h0 => exact absurd (h3.2 h0).symm hne
  · next h0 =>
    have hq : s.seqState ≠ .notConfigured := mt h3.1 h0
    refine ⟨if_neg h0, ?_⟩
    cases hs : s.seqState with
    | notConfigured => exact absurd hs hq
    | configured => exact absurd hs.symm hne
    | active => exact .inl rfl
    | finished => exact .inr rfl

theorem doSetSequence_changes_seqState (s : State) (n : Nat) (h : Consistent s)
    (hne : (doSetSequence s n).seqState ≠ s.seqState) :
    (doSetSequence s n).seqState = .configured ∧ s.seqState = .notConfigured := by
  obtain ⟨_, ⟨_, h2, _⟩, _⟩ := h
  unfold doSetSequence at hne ⊢
  split_ifs at hne ⊢ with hr hok
  · exact absurd rfl hne
  · obtain ⟨hq, _⟩ := h2 (by simpa using hr)
    exact ⟨rfl, hq.resolve_right fun hq => hne hq.symm⟩
  · exact absurd rfl hne

theorem doStartOutput_changes_seqState (s : State) (ch : Channel) (h : Consistent s)
    (hne : (doStartOutput s ch).seqState ≠ s.seqState) :
    ((doStartOutput s ch).seqState = .active ∨ (doStartOutput s ch).seqState = .finished) ∧ s.seqState = .configured := by
  have ht : Consistent (doStartOutput s ch) := doStartOutput_consistent s ch h
  obtain ⟨_, ⟨h1, _⟩, _⟩ := ht
  obtain ⟨_, ⟨_, h2, _⟩, _⟩ := h
  rcases doStartOutput_cases s ch with ⟨_, heq⟩ | ⟨_, _, heq⟩ | ⟨_, _, _, heq⟩ | ⟨_, _, _, _, heq⟩ | ⟨hr, hq, _, _, heq⟩
  · simp [heq] at hne
  · simp [heq] at hne
  · simp [heq] at hne
  · simp [heq] at hne
  · obtain ⟨hidle, _⟩ := h2 hr
    exact ⟨h1 (heq ▸ rfl), hidle.resolve_left hq⟩

/-- Of the ways a refill can go, only the one that ends the last step under HALT leaves the Active state. -/
theorem refill_changes_seqState (s : State) (h : Half) (hs : Armed s) (hne : (refill s h).seqState ≠ s.seqState) :
    (refill s h).seqState = .finished ∧ s.seqState = .active ∧ s.cfg.endPolicy = .halt ∧
      s.stepIndex.toNat + 1 = s.seqCount.toNat ∧ s.remain.toNat = s.cfg.half := by
  have hcases := Armed.remain_cases s hs
  obtain ⟨_, ha | hf, _, h4, _⟩ := hs
  · rcases hcases ha with hn | ⟨hn, hk⟩ | ⟨hn, hk, hloop⟩ | ⟨hn, hk, hhalt⟩
    · simp [refill_stays s h ha hn] at hne
    · simp [refill_toNextStep s h ha hn hk] at hne
    · simp [refill_loops s h ha hn hk hloop] at hne
    · obtain ⟨hlt, _⟩ := h4 ha
      exact ⟨congrArg (fun t : State => t.seqState) (refill_finishes s h ha hn hk hhalt), ha, hhalt, by omega, hn⟩
  · simp [refill_of_finished s h hf] at hne

/-! The rows of R238. -/

/-- The rows of the rule's table that a step under `slot` can take from `s` to `t`, each with its cause. -/
inductive SequencerTransition (slot : Slot) (s t : State) : Prop where
  | clear (ht : t.seqState = .notConfigured) (hs : slot = .reset ∨ presentsCommand slot .init)
  | configure (ht : t.seqState = .configured) (hfrom : s.seqState = .notConfigured)
      (hs : ∃ n, presentsCommand slot (.setSequence n))
  | stop (ht : t.seqState = .configured) (hfrom : s.seqState = .active ∨ s.seqState = .finished)
      (hs : presentsCommand slot .stopOutput ∨ ∃ e, s.pending.head? = some e ∧ s.lastHalf = some e.half ∧
        (slot = .isr ∨ presents slot (instrOfEvent e)))
  | start (ht : t.seqState = .active ∨ t.seqState = .finished) (hfrom : s.seqState = .configured)
      (hs : ∃ ch, presentsCommand slot (.startOutput ch))
  | finish (ht : t.seqState = .finished) (hfrom : s.seqState = .active) (hhalt : s.cfg.endPolicy = .halt)
      (hlast : s.stepIndex.toNat + 1 = s.seqCount.toNat) (hrem : s.remain.toNat = s.cfg.half)
      (hs : ∃ e, s.pending.head? = some e ∧ (slot = .isr ∨ presents slot (instrOfEvent e)))

/-- A command word takes the row of the command it decodes to, however it is presented. -/
theorem executeCommand_sequencerTransition (slot : Slot) (s : State) (v : Word) (h : Consistent s)
    (hs : slot = .packet (.cmd v) ∨ presents slot (.wr .word 0x00000#18 v))
    (hne : (executeCommand s v).seqState ≠ s.seqState) : SequencerTransition slot s (executeCommand s v) := by
  have hpresents : ∀ i, decode (.cmd v) = .ok i → presentsCommand slot i := fun i hd =>
    hs.imp (fun hcmd => ⟨_, hcmd, hd⟩) (fun hwr => ⟨v, hwr, hd⟩)
  unfold executeCommand at hne ⊢
  cases hd : decodeCmd v with
  | init => exact .clear (doInit_seqState s) (.inr (hpresents _ (congrArg Command.toInstr hd)))
  | setSequence n =>
    obtain ⟨ht, hfrom⟩ := doSetSequence_changes_seqState s n.toNat h (by simpa [hd] using hne)
    exact .configure ht hfrom ⟨n, hpresents _ (congrArg Command.toInstr hd)⟩
  | startOutput ch =>
    obtain ⟨ht, hfrom⟩ := doStartOutput_changes_seqState s ch h (by simpa [hd] using hne)
    exact .start ht hfrom ⟨ch, hpresents _ (congrArg Command.toInstr hd)⟩
  | stopOutput =>
    obtain ⟨ht, hfrom⟩ := stopEffects_changes_seqState s h (by simpa [hd, doStopOutput] using hne)
    exact .stop ht hfrom (.inl (hpresents _ (congrArg Command.toInstr hd)))
  | isRunning => simp [hd] at hne
  | illegal opc => simp [hd] at hne

theorem memWrite_seqState (s : State) (addr : Nat) (v : Word) (h0 : addr ≠ 0) : (memWrite s addr v).seqState = s.seqState := by
  unfold memWrite
  rw [if_neg h0]
  split <;> rfl

/-- The service of the last half stops, every other service refills. -/
theorem handler_sequencerTransition (slot : Slot) (s : State) (e : DmaEvent) (h : Consistent s)
    (hs : slot = .isr ∨ presents slot (instrOfEvent e)) (he : s.pending.head? = some e)
    (hne : (handler s.takeEvent e).seqState ≠ s.seqState) : SequencerTransition slot s (handler s.takeEvent e) := by
  by_cases hl : s.lastHalf = some e.half
  · rw [handler_of_lastHalf s.takeEvent e hl] at hne ⊢
    obtain ⟨ht, hfrom⟩ := stopEffects_changes_seqState s h hne
    exact .stop ht hfrom (.inr ⟨e, he, hl, hs⟩)
  · rw [handler_of_lastHalf_ne s.takeEvent e hl] at hne ⊢
    have harmed : Armed s.takeEvent := Consistent.armed s h (h.running_of_pending he)
    obtain ⟨ht, hfrom, hhalt, hlast, hrem⟩ := refill_changes_seqState s.takeEvent e.half harmed hne
    exact .finish ht hfrom hhalt hlast hrem ⟨e, he, hs⟩

theorem Cause.sequencerTransition {slot : Slot} {r t : State} (hcause : Cause slot r t) (h : Consistent r)
    (hne : t.seqState ≠ r.seqState) : SequencerTransition slot r t := by
  cases hcause with
  | draw q ok _ ht => exact absurd (ht ▸ rfl) hne
  | reset hs ht => exact .clear (ht ▸ rfl) (.inl hs)
  | command v hs ht =>
    subst ht
    exact executeCommand_sequencerTransition slot r v h hs hne
  | tick _ _ ht => exact absurd (ht ▸ tick_seqState r) hne
  | service e hs he ht =>
    subst ht
    exact handler_sequencerTransition slot r e h hs he hne
  | read size off _ ht => exact absurd (ht ▸ rfl) hne
  | write off v _ h0 ht => exact absurd (ht ▸ memWrite_seqState r _ v h0) hne

/-- Settles O23: a step that changes `SEQ_STATE` has a cause, and the cause gives its row. -/
theorem sequencerTransitionTable : Obligations.SequencerTransitionTable := by
  intro s t h hstep hne
  rcases step_cause s t hstep with ⟨_, rfl⟩ | ⟨slot, rest, hsched, hcause⟩
  · exact absurd rfl hne
  · refine ⟨slot, rest, hsched, ?_⟩
    cases hcause.sequencerTransition h hne with
    | clear ht hs => exact .inl ⟨ht, hs⟩
    | configure ht hfrom hs => exact .inr (.inl ⟨ht, hfrom, hs⟩)
    | stop ht hfrom hs => exact .inr (.inr (.inl ⟨ht, hfrom, hs⟩))
    | start ht hfrom hs => exact .inr (.inr (.inr (.inl ⟨ht, hfrom, hs⟩)))
    | finish ht hfrom hhalt hlast hrem hs => exact .inr (.inr (.inr (.inr ⟨ht, hfrom, hhalt, hlast, hrem, hs⟩)))

end Sys2Proof.Machine
end

section
/-! The commands of 44_controller.md: `INIT` (R261), `STOP_OUTPUT` (R263), the refusals of `START_OUTPUT` (R271, R272) and
`IS_RUNNING` (R275), each as a whole-state equation, and the causes that end a run (R277). -/

namespace Sys2Proof.Machine

/-! `IS_RUNNING` (44_controller.md R275). -/

/-- Settles O42: the answer is the one bit of the result word that depends on the state. -/
theorem isRunningAnswers : Obligations.IsRunningAnswers := by
  refine ⟨rfl, fun s => ?_⟩
  have hword : okWord opcIsRunning s.running = if s.running then 0x05010100#32 else 0x05000100#32 := by
    cases s.running
    · rfl
    · rfl
  exact hword ▸ rfl

/-! `STOP_OUTPUT` (44_controller.md R262, R263). -/

/-- While Idle the registers hold what the stop writes (10_state.md R55, INV2 and INV3). -/
theorem Consistent.stopEffects_of_idle {s : State} (h : Consistent s) (hr : s.running = false) : s.stopEffects = s := by
  obtain ⟨_, ⟨_, h2, h3, _⟩, _⟩ := h
  obtain ⟨hq, hpend, hpos, hlast, hphase, hrem, hidx⟩ := h2 hr
  have hstate : (if s.seqCount = 0#8 then SeqState.notConfigured else .configured) = s.seqState := by
    split
    · next h0 => exact (h3.2 h0).symm
    · next h0 => exact (hq.resolve_left (mt h3.1 h0)).symm
  rw [State.stopEffects, hstate, ← hr, ← hpend, ← hpos, ← hlast, ← hidx, ← hrem, ← hphase]

/-- Settles O41: the command is the stop and its result word, and the stop of an Idle block writes nothing new. -/
theorem stopOutputAlwaysSucceeds : Obligations.StopOutputAlwaysSucceeds := by
  refine ⟨rfl, fun s => ⟨rfl, fun h hr => ?_⟩⟩
  exact congrArg (fun t : State => Host.Outcome.next (t.ok opcStopOutput false)) (h.stopEffects_of_idle hr)

/-! `INIT` (44_controller.md R261). -/

/-- `INIT` of a Running block is the stop, then `INIT` of the Idle block. -/
theorem doInit_of_running (s : State) (hr : s.running = true) : doInit s = doInit s.stopEffects := by
  have heffects : initEffects s = initEffects s.stopEffects := by simp [initEffects, hr]
  rw [doInit, doInit, heffects]

theorem doInit_of_idle (s : State) (hr : s.running = false) :
    doInit s = { s with
      seq := List.replicate s.cfg.maxSteps StepRec.zero, seqCount := 0#8, seqState := .notConfigured, channel := .ch0
      done := false, underrun := false, initDone := s.outcome .timerInit
      result := if s.outcome .timerInit then 0x01000100#32 else 0x01000004#32
      fixed := { s.fixed with timerInit := none }, drawCount := s.drawCount + 1 } := by
  have heffects : initEffects s =
      { (initClear s).afterDraw .timerInit with initDone := s.outcome .timerInit } := by
    simp only [initEffects, hr]
    rfl
  rw [doInit, heffects]
  cases s.outcome .timerInit with
  | false => rfl
  | true => rfl

/-- Settles O35: an Idle block's `INIT` draws the outcome it reports, and a Running block's stops first. -/
theorem initResetsAndDraws : Obligations.InitResetsAndDraws := by
  refine fun s => ⟨fun hr => ?_, fun hr => ?_⟩
  · exact congrArg Host.Outcome.next (doInit_of_idle s hr)
  · exact congrArg Host.Outcome.next ((doInit_of_running s hr).trans (doInit_of_idle s.stopEffects rfl))

/-! A refused `START_OUTPUT` (44_controller.md R271, R272). -/

/-- Settles O38: the first check that fails raises, and a raise writes `RESULT` alone. -/
theorem startRejected : Obligations.StartRejected := by
  refine fun s ch => ⟨fun hr => ?_, fun hr hq => ?_, fun hr hq hi => ?_, fun hr hq hi ho => ?_⟩
  · exact congrArg Host.Outcome.next (doStartOutput_whenRunning s ch hr)
  · exact congrArg Host.Outcome.next (doStartOutput_notConfigured s ch hr hq)
  · exact congrArg Host.Outcome.next (doStartOutput_notInit s ch hr hq hi)
  · exact ⟨_, congrArg Host.Outcome.next (doStartOutput_failed s ch hr hq hi ho), rfl⟩

/-! The end of a run (44_controller.md R277). -/

/-- A command word presents the command it decodes to, by its packet or by a host write to `CMD`. -/
theorem presentsCommand_of_word {slot : Slot} {v : Word} {i : Instr}
    (hs : slot = .packet (.cmd v) ∨ presents slot (.wr .word 0x00000#18 v)) (hd : decode (.cmd v) = .ok i) :
    presentsCommand slot i :=
  hs.imp (fun hcmd => ⟨_, hcmd, hd⟩) (fun hwr => ⟨v, hwr, hd⟩)

theorem Cause.of_run_ended {slot : Slot} {r t : State} (hcause : Cause slot r t) (hr : r.running = true)
    (ht : t.running = false) :
    slot = .reset ∨ presentsCommand slot .stopOutput ∨ presentsCommand slot .init ∨
      ∃ e, r.pending.head? = some e ∧ r.lastHalf = some e.half ∧ (slot = .isr ∨ presents slot (instrOfEvent e)) ∧
        t.done = true := by
  have not_kept : t.running ≠ r.running := by simp [hr, ht]
  cases hcause with
  | draw q ok _ heq => exact absurd (heq ▸ State.fixOutcome_running r q ok) not_kept
  | reset hs _ => exact .inl hs
  | command v hs heq =>
    rcases executeCommand_running r v with hkept | hidle | hstop | hinit
    · exact absurd (heq ▸ hkept) not_kept
    · exact absurd (hr.symm.trans hidle) (by decide)
    · exact .inr (.inl (presentsCommand_of_word hs hstop))
    · exact .inr (.inr (.inl (presentsCommand_of_word hs hinit)))
  | tick _ _ heq => exact absurd (heq ▸ tick_running r) not_kept
  | service e hs he heq =>
    by_cases hl : r.lastHalf = some e.half
    · rw [handler_of_lastHalf r.takeEvent e hl] at heq
      exact .inr (.inr (.inr ⟨e, he, hl, hs, heq ▸ rfl⟩))
    · rw [handler_of_lastHalf_ne r.takeEvent e hl] at heq
      exact absurd (heq ▸ refill_running r.takeEvent e.half) not_kept
  | read size off _ heq => exact absurd (heq ▸ rfl) not_kept
  | write off v _ h0 heq => exact absurd (heq ▸ memWrite_running r _ v h0) not_kept

/-- Settles O22: an idle step keeps the block Running, and of the causes only the four can end the run. -/
theorem runningEndsOnlyByStop : Obligations.RunningEndsOnlyByStop := by
  intro s t hstep hr ht
  rcases step_cause s t hstep with ⟨_, rfl⟩ | ⟨slot, rest, hs, hcause⟩
  · exact absurd (hr.symm.trans ht) (by decide)
  · exact ⟨slot, rest, hs, hcause.of_run_ended hr ht⟩

end Sys2Proof.Machine
end

section
/-! An accepted `START_OUTPUT` (44_controller.md R270): the cursor goes to step 0 at phase 0, and the prefill is two refills.
Each refill is followed on the cursor, on the bytes of its half, and on the fields it leaves alone. -/

namespace Sys2Proof.Machine

/-! The fields a refill writes. -/

/-- `s` with the sequencer's cursor and the buffer of `t`: the fields that a refill writes. -/
def State.withRefillOf (s t : State) : State :=
  { s with
    seqState := t.seqState, stepIndex := t.stepIndex, remain := t.remain, phase := t.phase, lastHalf := t.lastHalf
    mem := t.mem }

theorem Armed.active_or_finished {s : State} (hs : Armed s) : s.seqState = .active ∨ s.seqState = .finished := by
  obtain ⟨_, hq, _⟩ := hs
  exact hq

theorem refill_frame (s : State) (h : Half) (hs : Armed s) : refill s h = s.withRefillOf (refill s h) := by
  rcases hs.active_or_finished with ha | hf
  · obtain ⟨q, k, r, l, heq⟩ := refill_active_frame s h hs ha
    rw [heq]
    rfl
  · rw [refill_of_finished s h hf]
    rfl

theorem prefill_armed (s : State) (hs : Armed s) : Armed (prefill s) :=
  (refill_armed _ .second (refill_armed s .first hs).1).1

theorem prefill_frame (s : State) (hs : Armed s) : prefill s = s.withRefillOf (prefill s) := by
  have hfirst := refill_frame s .first hs
  have hsecond := refill_frame (refill s .first) .second (refill_armed s .first hs).1
  calc prefill s = (refill s .first).withRefillOf (prefill s) := hsecond
    _ = (s.withRefillOf (refill s .first)).withRefillOf (prefill s) := congrArg (State.withRefillOf · (prefill s)) hfirst
    _ = s.withRefillOf (prefill s) := rfl

/-- The commit of `START_OUTPUT` writes the cursor and the buffer, and arms the run. -/
theorem startCommit_frame (s : State) (ch : Channel) (hs : Armed (seqStart (startArm s ch))) :
    startCommit s ch =
      { s.withRefillOf (startCommit s ch) with
        running := true, channel := ch, done := false, pending := [], dmaPos := 0#16 } :=
  congrArg (fun t : State => { t with running := true }) (prefill_frame _ hs)

/-! The bytes a refill writes. -/

theorem State.bufAt_of_sameBytesOutside {s t : State} {first n j : Nat} (h : sameBytesOutside s t first n)
    (hj : j < first ∨ first + n ≤ j) : t.bufAt j = s.bufAt j := by
  have hlow := h (bufAddr j) (by simp only [bufAddr]; omega)
  have hhigh := h (bufAddr j + 1) (by simp only [bufAddr]; omega)
  simp only [State.bufAt, hlow, hhigh]

theorem refill_epoch (s : State) (h : Half) : (refill s h).epoch = s.epoch := congrArg Outside.epoch (refill_toOutside s h)

/-- A refill in the Active state stores the codes of the current step. -/
theorem refill_mem_of_active (s : State) (h : Half) (ha : s.seqState = .active) :
    (refill s h).mem = (s.storeSamples (halfBase s.cfg h)
      (synth s.cfg (s.seqAt s.stepIndex.toNat).inc (s.seqAt s.stepIndex.toNat).amp s.phase s.cfg.half)).mem := by
  have hrefill : refill s h = refillActive s h := by simp only [refill, ha]
  rw [hrefill, refillActive_mem s h ha]

/-- A refill leaves every byte outside its half. -/
theorem refill_sameBytesOutside (s : State) (h : Half) (hq : s.seqState = .active ∨ s.seqState = .finished) :
    sameBytesOutside s (refill s h) (halfBase s.cfg h) s.cfg.half := by
  rcases hq with ha | hf
  · intro a houtside
    rw [State.byteAt_congr _ _ (refill_mem_of_active s h ha) (refill_epoch s h)]
    exact sameBytesOutside_storeHalf s h _ (synth_length ..) a houtside
  · rw [refill_of_finished s h hf]
    exact sameBytesOutside_storeHalf s h _ List.length_replicate

/-- A prefill leaves every byte outside the buffer. -/
theorem prefill_sameBytesOutside (s : State) (hs : Armed s) : sameBytesOutside s (prefill s) 0 s.cfg.bufferSize := by
  intro a houtside
  have hsize := s.cfg.two_mul_half (s.cfg.wellFormed_iff.1 hs.1).1
  have hfirst := refill_sameBytesOutside s .first hs.active_or_finished a
  have hsecond := refill_sameBytesOutside (refill s .first) .second (refill_armed s .first hs).1.active_or_finished a
  simp only [halfBase, bufAddr, refill_cfg] at houtside hfirst hsecond
  exact (hsecond (by omega)).trans (hfirst (by omega))

/-- The second refill of a prefill leaves the First half as the first one filled it. -/
theorem prefill_bufAt_first (s : State) (hs : Armed s) {j : Nat} (hj : j < s.cfg.half) :
    (prefill s).bufAt j = (refill s .first).bufAt j := by
  have hq := (refill_armed s .first hs).1.active_or_finished
  refine State.bufAt_of_sameBytesOutside (refill_sameBytesOutside (refill s .first) .second hq) (.inl ?_)
  simpa only [halfBase, refill_cfg] using hj

/-! The cursor, refill by refill (43_step_sequencer.md R236). -/

/-- `u` plays the configuration and the stored sequence of `s`, and its cursor stands as given. -/
structure PlaysAt (s u : State) (q : SeqState) (k rem : Nat) (phase : Word) (last : Option Half) : Prop where
  cfg : u.cfg = s.cfg
  seq : u.seq = s.seq
  count : u.seqCount = s.seqCount
  cursor : cursorIs u q k rem phase last

namespace PlaysAt

variable {s u : State} {k r : Nat} {p : Word} {l : Option Half}

theorem seqAt {q : SeqState} (hu : PlaysAt s u q k r p l) (i : Nat) : u.seqAt i = s.seqAt i := by
  simp only [State.seqAt, hu.seq]

theorem refill_stays (hu : PlaysAt s u .active k r p l) (h : Half) (hn : s.cfg.half < r) :
    PlaysAt s (refill u h) .active k (r - s.cfg.half) (phaseAfter s.cfg (s.seqAt k).inc p s.cfg.half) l := by
  have ⟨hcfg, hseq, hcount, ha, hk, hr, hp, hl⟩ := hu
  subst hk hr hp
  rw [← hcfg] at hn ⊢
  rw [← hu.seqAt, Machine.refill_stays u h ha hn]
  exact ⟨hcfg, hseq, hcount, ha, rfl, remain_sub_half_toNat _ _ hn, rfl, hl⟩

theorem refill_toNextStep (hu : PlaysAt s u .active k r p l) (h : Half) (hn : r = s.cfg.half)
    (hmore : k + 1 < s.seqCount.toNat) :
    PlaysAt s (refill u h) .active (k + 1) (s.seqAt (k + 1)).samples.toNat
      (phaseAfter s.cfg (s.seqAt k).inc p s.cfg.half) l := by
  have ⟨hcfg, hseq, hcount, ha, hk, hr, hp, hl⟩ := hu
  subst hk hr hp
  rw [← hcfg] at hn ⊢
  rw [← hcount] at hmore
  rw [← hu.seqAt, ← hu.seqAt, Machine.refill_toNextStep u h ha hn hmore]
  exact ⟨hcfg, hseq, hcount, ha, stepIndex_succ_toNat _ _ hmore, rfl, rfl, hl⟩

theorem refill_loops (hu : PlaysAt s u .active k r p l) (h : Half) (hn : r = s.cfg.half)
    (hlast : s.seqCount.toNat = k + 1) (hloop : s.cfg.endPolicy = .loop) :
    PlaysAt s (refill u h) .active 0 (s.seqAt 0).samples.toNat (phaseAfter s.cfg (s.seqAt k).inc p s.cfg.half) l := by
  have ⟨hcfg, hseq, hcount, ha, hk, hr, hp, hl⟩ := hu
  subst hk hr hp
  rw [← hcfg] at hn hloop ⊢
  rw [← hcount] at hlast
  rw [← hu.seqAt, ← hu.seqAt, Machine.refill_loops u h ha hn hlast.not_gt hloop]
  exact ⟨hcfg, hseq, hcount, ha, rfl, rfl, rfl, hl⟩

theorem refill_finishes (hu : PlaysAt s u .active k r p l) (h : Half) (hn : r = s.cfg.half)
    (hlast : s.seqCount.toNat = k + 1) (hhalt : s.cfg.endPolicy = .halt) :
    PlaysAt s (refill u h) .finished k 0 (phaseAfter s.cfg (s.seqAt k).inc p s.cfg.half) (some h) := by
  have ⟨hcfg, hseq, hcount, ha, hk, hr, hp, _⟩ := hu
  subst hk hr hp
  rw [← hcfg] at hn hhalt ⊢
  rw [← hcount] at hlast
  rw [← hu.seqAt, Machine.refill_finishes u h ha hn hlast.not_gt hhalt]
  exact ⟨hcfg, hseq, hcount, rfl, rfl, rfl, rfl, rfl⟩

/-- The filler of the Finished state leaves the cursor (42_buffer_refill.md R201). -/
theorem refill_filler (hu : PlaysAt s u .finished k r p l) (h : Half) : PlaysAt s (refill u h) .finished k r p l := by
  rw [refill_of_finished u h hu.cursor.1]
  exact ⟨hu.cfg, hu.seq, hu.count, hu.cursor⟩

/-- In the Active state the half holds the codes of the cursor's step from its phase. -/
theorem refill_bufAt_active (hu : PlaysAt s u .active k r p l) (h : Half) {j : Nat} (hj : j < s.cfg.half) :
    some ((refill u h).bufAt (halfBase s.cfg h + j)) =
      (synth s.cfg (s.seqAt k).inc (s.seqAt k).amp p s.cfg.half)[j]? := by
  have ⟨hcfg, _, _, ha, hk, _, hp, _⟩ := hu
  subst hk hp
  rw [← hcfg] at hj ⊢
  rw [← hu.seqAt, State.bufAt_congr _ _ (refill_mem_of_active u h ha) (refill_epoch u h)]
  exact bufAt_storeHalf u h _ (synth_length ..) j hj

/-- In the Finished state the half holds the mid-scale code (42_buffer_refill.md R201). -/
theorem refill_bufAt_finished (hu : PlaysAt s u .finished k r p l) (h : Half) {j : Nat} (hj : j < s.cfg.half) :
    some ((refill u h).bufAt (halfBase s.cfg h + j)) = some (midSample s.cfg) := by
  have ⟨hcfg, _, _, hf, _⟩ := hu
  rw [← hcfg] at hj ⊢
  rw [refill_of_finished u h hf]
  exact (bufAt_storeHalf u h _ List.length_replicate j hj).trans (List.getElem?_replicate_of_lt hj)

end PlaysAt

/-! The command. -/

/-- A positive number of whole halves is one, two, or more. -/
theorem whole_halves_cases {n half : Nat} (hpos : 0 < n) (hmod : n % half = 0) :
    n = half ∨ n = 2 * half ∨ 2 * half < n := by
  have hone : half ≤ n := Nat.le_of_dvd hpos (Nat.dvd_of_mod_eq_zero hmod)
  rcases Nat.eq_or_lt_of_le hone with heq | hlt
  · exact .inl heq.symm
  · have hrest : half ∣ n - half := Nat.dvd_of_mod_eq_zero ((Nat.mod_eq_sub_mod hone).symm.trans hmod)
    have htwo : half ≤ n - half := Nat.le_of_dvd (by omega) hrest
    omega

/-- INV8 (10_state.md R55): a stored step is a positive number of halves long. -/
theorem Consistent.samples_cases {s : State} (h : Consistent s) {k : Nat} (hk : k < s.seqCount.toNat) :
    (s.seqAt k).samples.toNat = s.cfg.half ∨ (s.seqAt k).samples.toNat = 2 * s.cfg.half ∨
      2 * s.cfg.half < (s.seqAt k).samples.toNat := by
  obtain ⟨_, ⟨_, _, _, _, _, _, _, h8⟩, _⟩ := h
  exact whole_halves_cases (h8 k hk).1 (h8 k hk).2

/-- INV3 (10_state.md R55): a configured block has a step. -/
theorem Consistent.seqCount_pos {s : State} (h : Consistent s) (hq : s.seqState ≠ .notConfigured) : 0 < s.seqCount.toNat := by
  obtain ⟨_, ⟨_, _, h3, _⟩, _⟩ := h
  exact Nat.pos_of_ne_zero fun h0 => hq (h3.2 (BitVec.eq_of_toNat_eq h0))

theorem endPolicy_eq_halt_of_ne_loop {p : EndPolicy} (h : p ≠ .loop) : p = .halt := by
  cases p with
  | halt => rfl
  | loop => exact absurd rfl h

/-- The sequencer starts at step 0 and phase 0 (43_step_sequencer.md R235). -/
theorem seqStart_playsAt (s : State) (ch : Channel) :
    PlaysAt s (seqStart (startArm (startDraws s) ch)) .active 0 (s.seqAt 0).samples.toNat 0#32 none :=
  ⟨rfl, rfl, rfl, rfl, rfl, rfl, rfl, rfl⟩

/-- Settles O39: the first refill starts step 0, and each of the two ends in one of the four ways of R236 or is the filler. -/
theorem startPrefillsAndRuns : Obligations.StartPrefillsAndRuns := by
  intro s ch hs hr hq hi hdma htimer
  have hq' : s.seqState ≠ .notConfigured := by simp [hq]
  have hexec := doStartOutput_started s ch hr hq' hi (by simp [startOutcome, hdma, htimer])
  have harmed := seqStart_startArm_armed (startDraws s) ch hs hq'
  have hframe := startCommit_frame (startDraws s) ch harmed
  have hfixed : ((startCommit (startDraws s) ch).ok opcStartOutput false).fixed = (startDraws s).fixed :=
    congrArg Outside.fixed (startCommit_toOutside (startDraws s) ch)
  have hhalf := s.cfg.half_pos (s.cfg.wellFormed_iff.1 hs.1).1
  have hcount := hs.seqCount_pos hq'
  have hsamples0 := hs.samples_cases hcount
  have hstart := seqStart_playsAt s ch
  have hstays := hstart.refill_stays .first
  have hnext := hstart.refill_toNextStep .first
  have hloops := hstart.refill_loops .first
  have hfinishes := hstart.refill_finishes .first
  refine ⟨_, congrArg Host.Outcome.next hexec, (prefill_armed _ harmed).active_or_finished, fun j hj => ?_, fun j hj => ?_, ?_,
    prefill_sameBytesOutside _ harmed, ?_⟩
  · have hbuf := hstart.refill_bufAt_active .first hj
    rw [show halfBase s.cfg .first + j = j from Nat.zero_add j] at hbuf
    exact (congrArg some (prefill_bufAt_first _ harmed hj)).trans hbuf
  · split_ifs with hmore hstep hloop
    · exact (hstays (by omega)).refill_bufAt_active .second hj
    · exact (hnext (by omega) hstep).refill_bufAt_active .second hj
    · exact (hloops (by omega) (by omega) hloop).refill_bufAt_active .second hj
    · exact (hfinishes (by omega) (by omega) (endPolicy_eq_halt_of_ne_loop hloop)).refill_bufAt_finished .second hj
  · dsimp only
    refine ⟨fun hn => ?_, fun hn hl => ?_, fun hn hl hp => ?_, fun hn hl hp => ?_, fun hn hl hn1 => ?_,
      fun hn hl hn1 hl1 => ?_, fun hn hn1 hl1 hp => ?_, fun hn hn1 hl1 hp => ?_, fun hn hl hp => ?_, fun hn hl hp => ?_,
      hsamples0, fun hl => ?_⟩
    · have hboth := ((hstays (by omega)).refill_stays .second (by omega)).cursor
      rwa [Nat.sub_sub, ← Nat.two_mul] at hboth
    · exact ((hstays (by omega)).refill_toNextStep .second (by omega) (by omega)).cursor
    · exact ((hstays (by omega)).refill_loops .second (by omega) hl hp).cursor
    · exact ((hstays (by omega)).refill_finishes .second (by omega) hl hp).cursor
    · exact ((hnext hn (by omega)).refill_stays .second hn1).cursor
    · exact ((hnext hn (by omega)).refill_toNextStep .second hn1 (by omega)).cursor
    · exact ((hnext hn (by omega)).refill_loops .second hn1 hl1 hp).cursor
    · exact ((hnext hn (by omega)).refill_finishes .second hn1 hl1 hp).cursor
    · exact ((hloops hn hl hp).refill_loops .second hn hl hp).cursor
    · exact ((hfinishes hn hl hp).refill_filler .second).cursor
    · have hsamples1 := hs.samples_cases (k := 1) (by omega)
      omega
  · rw [hfixed]
    exact congrArg (State.ok · opcStartOutput false) hframe

end Sys2Proof.Machine
end

section
/-! The commands' ends of 60_exceptions.md: an ILLEGAL word writes `RESULT` alone (R303), only a command writes `RESULT` (R300),
and every command leaves in it the word of its `ok` or of its error (R300, R301, 10_state.md R47). -/

namespace Sys2Proof.Machine

/-! An ILLEGAL word (60_exceptions.md R303). -/

theorem cmdOpc_of_illegal {v : Word} {opc : Byte} (h : decodeCmd v = .illegal opc) : opc = cmdOpc v := by
  obtain ⟨hopc, -⟩ : (Command.illegal opc).HasWord v := h ▸ decodeCmd_hasWord v
  exact hopc

theorem executeCommand_illegal (s : State) {v : Word} {opc : Byte} (h : decodeCmd v = .illegal opc) :
    executeCommand s v = { s with result := ((v.extractLsb' 0 8).setWidth 32 <<< 24) ||| 5#32 } := by
  have hdo : executeCommand s v = doIllegal s opc := by simp only [executeCommand, h]
  have hword : errWord opc .illegalCommand = ((v.extractLsb' 0 8).setWidth 32 <<< 24) ||| 5#32 :=
    cmdOpc_of_illegal h ▸ errWord_illegal (cmdOpc v)
  rw [hdo, ← hword]
  rfl

theorem runPacket_illegal (s : State) {v : Word} {opc : Byte} (h : decodeCmd v = .illegal opc) :
    runPacket (.cmd v) s = .next (executeCommand s v) := by
  simp only [runPacket, decode, h, Command.toInstr, executeCommand]

/-- Settles O43: the packet and the host write both run the word as a command, and it raises IllegalCommand with its `OPC`. -/
theorem illegalCommandChangesOnlyResult : Obligations.IllegalCommandChangesOnlyResult := by
  have hwrite (s : State) (v : Word) (opc : Byte) (hd : decodeCmd v = .illegal opc) :
      exec (.wr .word 0x00000#18 v) s = .next { s with result := ((v.extractLsb' 0 8).setWidth 32 <<< 24) ||| 5#32 } :=
    (exec_wr_cmd s v).trans (congrArg Host.Outcome.next (executeCommand_illegal s hd))
  refine ⟨fun s v opc hd => ⟨fun rest hs => ?_, hwrite s v opc hd⟩, fun s => ?_⟩
  · calc step s = runPacket (.cmd v) { s with schedule := rest } := step_of_schedule s _ rest hs
      _ = .next (executeCommand { s with schedule := rest } v) := runPacket_illegal _ hd
      _ = .next { s with schedule := rest, result := ((v.extractLsb' 0 8).setWidth 32 <<< 24) ||| 5#32 } :=
        congrArg Host.Outcome.next (executeCommand_illegal _ hd)
  · exact ⟨hwrite s 0x00000000#32 0x00#8 rfl, hwrite s 0x00000006#32 0x06#8 rfl, hwrite s 0x00000101#32 0x01#8 rfl,
      hwrite s 0x80000004#32 0x04#8 rfl⟩

/-! The writers of `RESULT` (60_exceptions.md R300, 20_memory.md R84). -/

theorem memWrite_result (s : State) (addr : Nat) (v : Word) (h0 : addr ≠ 0) : (memWrite s addr v).result = s.result := by
  unfold memWrite
  rw [if_neg h0]
  split <;> rfl

theorem Cause.result_cases {slot : Slot} {r t : State} (hcause : Cause slot r t) :
    t.result = r.result ∨ slot = .reset ∨
      ∃ v, slot = .packet (.cmd v) ∨ presents slot (.wr .word 0x00000#18 v) := by
  cases hcause with
  | draw q ok _ ht => exact .inl (ht ▸ State.fixOutcome_result r q ok)
  | reset hs _ => exact .inr (.inl hs)
  | command v hs _ => exact .inr (.inr ⟨v, hs⟩)
  | tick _ _ ht => exact .inl (ht ▸ tick_result r)
  | service e _ _ ht => exact .inl (ht ▸ handler_result r.takeEvent e)
  | read size off _ ht => exact .inl (ht ▸ rfl)
  | write off v _ h0 ht => exact .inl (ht ▸ memWrite_result r _ v h0)

/-- Settles O19: of all the causes only the reset and the command words reach `RESULT`. -/
theorem resultWrittenOnlyByCommands : Obligations.ResultWrittenOnlyByCommands := by
  intro s t h
  rcases step_cause s t h with ⟨_, rfl⟩ | ⟨slot, rest, hs, hcause⟩
  · exact .inl rfl
  · rcases hcause.result_cases with hsame | rfl | ⟨v, rfl | hwrite⟩
    · exact .inl hsame
    · exact .inr (.inl (by simp [hs]))
    · exact .inr (.inr (.inl ⟨v, rest, hs⟩))
    · exact .inr (.inr (.inr ⟨slot, rest, v, hs, hwrite⟩))

/-! The word each command leaves in `RESULT` (60_exceptions.md R300). -/

/-- The word is what a command of this `OPC` reports: `ok`, with a `VALUE` of 1 only where `yes` holds, or an error. -/
def IsReport (opc : Byte) (yes : Prop) (w : Word) : Prop :=
  (∃ value, w = okWord opc value ∧ (value = true → yes)) ∨ ∃ e, w = errWord opc e

theorem IsReport.ok_false (s : State) (opc : Byte) (yes : Prop) : IsReport opc yes (s.ok opc false).result :=
  .inl ⟨false, rfl, nofun⟩

theorem IsReport.raise (s : State) (opc : Byte) (yes : Prop) (e : CommandError) : IsReport opc yes (s.raise opc e).result :=
  .inr ⟨e, rfl⟩

theorem doInit_isReport (s : State) (yes : Prop) : IsReport opcInit yes (doInit s).result := by
  unfold doInit
  split
  · exact .ok_false ..
  · exact .raise ..

theorem doSetSequence_isReport (s : State) (n : Nat) (yes : Prop) : IsReport opcSetSequence yes (doSetSequence s n).result := by
  unfold doSetSequence
  split_ifs
  · exact .raise ..
  · exact .ok_false ..
  · exact .raise ..

theorem doStartOutput_isReport (s : State) (ch : Channel) (yes : Prop) :
    IsReport opcStartOutput yes (doStartOutput s ch).result := by
  unfold doStartOutput
  split_ifs
  · exact .raise ..
  · exact .raise ..
  · exact .raise ..
  · exact .ok_false ..
  · exact .raise ..

/-- The row of a word fixes its `OPC`, and only `IS_RUNNING` answers with a `VALUE` of 1. -/
theorem executeCommand_isReport (s : State) (v : Word) :
    IsReport (cmdOpc v) (v = 0x00000005#32 ∧ s.running = true) (executeCommand s v).result := by
  have hword := decodeCmd_hasWord v
  unfold executeCommand
  generalize decodeCmd v = k at hword
  cases k with
  | init =>
    obtain rfl : v = 0x00000001#32 := hword
    exact doInit_isReport s _
  | setSequence n =>
    obtain ⟨hv, -⟩ := hword
    have hopc : cmdOpc v = opcSetSequence := cmdOpc_of_masked rfl hv
    exact hopc ▸ doSetSequence_isReport s _ _
  | startOutput ch =>
    obtain ⟨hv, -⟩ := hword
    have hopc : cmdOpc v = opcStartOutput := cmdOpc_of_masked rfl hv
    exact hopc ▸ doStartOutput_isReport s ch _
  | stopOutput =>
    obtain rfl : v = 0x00000004#32 := hword
    exact .ok_false ..
  | isRunning =>
    obtain rfl : v = 0x00000005#32 := hword
    exact .inl ⟨s.running, rfl, fun hr => ⟨rfl, hr⟩⟩
  | illegal opc =>
    obtain ⟨rfl, -⟩ := hword
    exact .raise ..

/-! The layout of `RESULT` (10_state.md R47). -/

theorem resultWord_fields (opc : Byte) (value ok : Bool) (err : BitVec 4) (w : BitVec (8 + 7 + 1 + 7 + 1 + 4 + 4))
    (hw : w = resultWord opc value ok err) :
    w.extractLsb' 24 8 = opc ∧ w.extractLsb' 17 7 = 0#7 ∧ w.getLsbD 16 = value ∧ w.extractLsb' 9 7 = 0#7 ∧
      w.getLsbD 8 = ok ∧ w.extractLsb' 4 4 = 0#4 ∧ w.extractLsb' 0 4 = err := by
  subst hw
  unfold resultWord
  simp (disch := omega) only [BitVec.extractLsb'_append_eq_of_le, BitVec.extractLsb'_append_eq_of_add_le,
    BitVec.getLsbD_append]
  simp

theorem CommandError.code_range (e : CommandError) : 1 ≤ e.code.toNat ∧ e.code.toNat ≤ 5 := by
  cases e <;> decide

/-- Settles O45: the word is the report of the command, and a report has `OK` or a nonzero `ERR`. -/
theorem commandResultLayout : Obligations.CommandResultLayout := by
  intro s v
  refine ⟨executeCommand s v, exec_wr_cmd s v, ?_⟩
  have hreport := executeCommand_isReport s v
  generalize (executeCommand s v).result = w at hreport
  rcases hreport with ⟨value, hw, hyes⟩ | ⟨e, hw⟩
  · obtain ⟨hopc, hres17, hvalue, hres9, hok, hres4, herr⟩ := resultWord_fields _ _ _ _ w hw
    refine ⟨hopc, hres17, hres9, hres4, .inl ⟨hok, herr⟩, fun h => hyes (hvalue.symm.trans h), ?_⟩
    rintro rfl
    exact absurd hok (by decide)
  · obtain ⟨hopc, hres17, hvalue, hres9, hok, hres4, herr⟩ := resultWord_fields _ _ _ _ w hw
    have hrange := e.code_range
    rw [← herr] at hrange
    refine ⟨hopc, hres17, hres9, hres4, .inr ⟨hok, hvalue, hrange⟩, fun h => absurd (hvalue.symm.trans h) nofun, ?_⟩
    rintro rfl
    exact absurd hrange (by decide)

end Sys2Proof.Machine
end

section
/-! The model faults of 60_exceptions.md R316: from a consistent state every refill runs on an armed sequencer, where it adds no
fault (`refill_armed`), so only the tick's deadline miss is left. -/

namespace Sys2Proof.Machine

theorem prefill_faults (s : State) (hs : Armed s) : (prefill s).faults = s.faults := by
  obtain ⟨hfirst, hkeep⟩ := refill_armed s .first hs
  exact (refill_armed _ .second hfirst).2.trans hkeep

theorem startCommit_faults (s : State) (ch : Channel) (hs : Armed (seqStart (startArm s ch))) :
    (startCommit s ch).faults = s.faults :=
  prefill_faults _ hs

theorem doStartOutput_faults (s : State) (ch : Channel) (h : Consistent s) : (doStartOutput s ch).faults = s.faults := by
  rcases doStartOutput_cases s ch with
    ⟨_, heq⟩ | ⟨_, _, heq⟩ | ⟨_, _, _, heq⟩ | ⟨_, _, _, _, heq⟩ | ⟨_, hq, _, _, heq⟩
  · exact heq ▸ rfl
  · exact heq ▸ rfl
  · exact heq ▸ rfl
  · exact heq ▸ rfl
  · exact heq ▸ startCommit_faults (startDraws s) ch (seqStart_startArm_armed (startDraws s) ch h hq)

theorem executeCommand_faults (s : State) (v : Word) (h : Consistent s) : (executeCommand s v).faults = s.faults := by
  unfold executeCommand
  split
  · exact doInit_faults s
  · exact doSetSequence_faults s _
  · exact doStartOutput_faults s _ h
  · exact doStopOutput_faults s
  · exact doIsRunning_faults s
  · exact doIllegal_faults s _

theorem memWrite_faults (s : State) (addr : Nat) (v : Word) (h : Consistent s) : (memWrite s addr v).faults = s.faults := by
  unfold memWrite
  split_ifs
  · exact executeCommand_faults s v h
  · rfl
  · rfl

theorem handler_takeEvent_faults (s : State) (e : DmaEvent) (h : Consistent s) (he : s.pending.head? = some e) :
    (handler s.takeEvent e).faults = s.faults := by
  have harmed : Armed s.takeEvent := Consistent.armed s h (h.running_of_pending he)
  unfold handler
  split
  · rfl
  · exact (refill_armed _ _ harmed).2

/-- From a consistent state a cause empties `FAULTS`, leaves it, or adds a deadline miss. -/
theorem Cause.faults_cases {slot : Slot} {r t : State} (hcause : Cause slot r t) (h : Consistent r) :
    (slot = .reset ∧ t.faults = FaultSet.empty) ∨ t.faults = r.faults ∨
      (presents slot .evTick ∧ t.faults = r.faults.add .deadlineMiss) := by
  cases hcause with
  | draw q ok _ ht => exact .inr (.inl (ht ▸ State.fixOutcome_faults r q ok))
  | reset hs ht => exact .inl ⟨hs, ht ▸ rfl⟩
  | command v _ ht => exact .inr (.inl (ht ▸ executeCommand_faults r v h))
  | tick hs _ ht =>
    subst ht
    rw [tick_faults]
    split
    · exact .inr (.inr ⟨hs, rfl⟩)
    · exact .inr (.inl rfl)
  | service e _ he ht => exact .inr (.inl (ht ▸ handler_takeEvent_faults r e h he))
  | read size off _ ht => exact .inr (.inl (ht ▸ rfl))
  | write off v _ _ ht => exact .inr (.inl (ht ▸ memWrite_faults r _ v h))

/-- Settles O17: no name but the deadline miss's is added by a cause of a step from a consistent state. -/
theorem onlyDeadlineMissOccurs : Obligations.OnlyDeadlineMissOccurs := by
  intro s t h honly hstep
  rcases step_cause s t hstep with ⟨_, rfl⟩ | ⟨slot, rest, _, hcause⟩
  · exact honly
  · rcases hcause.faults_cases h with ⟨_, hempty⟩ | hsame | ⟨_, hmiss⟩
    · exact hempty ▸ ⟨rfl, rfl, rfl, rfl⟩
    · exact hsame ▸ honly
    · exact hmiss ▸ honly

end Sys2Proof.Machine
end

section
/-! The statements of 70_reset_and_hazards.md. The power-on reset: its values (R341), its use at any later time (R340), and its
place among the legal states (R342). Then what a run depends on: the stored sequence and the channel stay fixed under it
(R353), and its start looks at no other part of the state (R356), which goes by following two runs side by side. -/

namespace Sys2Proof.Machine

/-! The state after reset (70_reset_and_hazards.md R341). -/

theorem replicate_zero_stage_getD (m k : Nat) : (List.replicate m StageSlot.zero).getD k StageSlot.zero = StageSlot.zero := by
  by_cases h : k < m <;> simp [List.getD, h]

theorem initial_dacOut (c : Config) (n : Nat) (ch : Channel) :
    (State.initial c n).dacOut ch = dacCode c (Config.powerOnDac n ch) := by
  cases ch <;> rfl

theorem initial_memRead_register (c : Config) (n : Nat) {addr : Nat}
    (h : addr ∈ [0x004, 0x008, 0x00C, 0x010, 0x014, 0x018, 0x028]) : memRead (State.initial c n) addr .word = 0#32 := by
  simp only [List.mem_cons, List.not_mem_nil, or_false] at h
  have remainHigh : (0#64).extractLsb' 32 32 = 0#32 := by decide
  rcases h with rfl | rfl | rfl | rfl | rfl | rfl | rfl
  · rfl
  · exact initial_statusWord c n
  · rfl
  · rfl
  · exact remainHigh
  · rfl
  · rfl

/-- Settles O10: the registers are 0 as `BlockState.initial` writes them, an entry of an all-zero list reads as zero, and the
draws are what an unwritten byte and a `DAC_OUT` register hold. -/
theorem resetStateIsIdle : Obligations.ResetStateIsIdle := by
  refine ⟨rfl, fun c n => ⟨rfl, rfl, rfl, rfl, rfl, rfl, rfl, replicate_zero_getD c.maxSteps,
    replicate_zero_stage_getD c.maxSteps, fun _ => rfl, rfl, rfl, rfl, rfl, rfl, rfl, rfl, fun hp ch => ?_, rfl, rfl,
    fun _ haddr => initial_memRead_register c n haddr⟩⟩
  rw [initial_dacOut]
  exact dacCode_toNat c hp (Config.powerOnDac n ch)

/-- Settles O11: the reset slot's step is `powerOnReset`, and that is the initial state beside the old outside. -/
theorem powerOnResetAtAnyTime : Obligations.PowerOnResetAtAnyTime := by
  intro s rest hs
  exact (step_of_schedule s .reset rest hs).trans (congrArg Host.Outcome.next (State.powerOnReset_eq { s with schedule := rest }))

theorem reference_legal : Config.reference.Legal := ⟨by decide, referenceTableMeetsFormula⟩

/-- Settles O12: every reset state of a configuration that passes the checks is consistent, and a table of R141 passes them. -/
theorem resetStateLegal : Obligations.ResetStateLegal :=
  ⟨initial_consistent _ 0 reference_legal.wellFormed, fun c n =>
    ⟨initial_consistent c n, fun hc => ⟨hc, initial_consistent c n hc.wellFormed⟩⟩⟩

/-! The stored sequence and the channel under a run (70_reset_and_hazards.md R353). -/

/-- `t` has the stored sequence and the channel of `s`. -/
def SequenceKept (s t : State) : Prop := t.seq = s.seq ∧ t.seqCount = s.seqCount ∧ t.channel = s.channel

theorem doInit_ends_run (s : State) (hr : s.running = true) : (doInit s).running = false := by
  rw [doInit_of_running s hr, doInit_of_idle s.stopEffects rfl]
  rfl

/-- `INIT` ends a run; a Running block refuses `SET_SEQUENCE` and `START_OUTPUT`, and no other command writes the sequence or
the channel. -/
theorem executeCommand_sequenceKept (s : State) (v : Word) (hr : s.running = true)
    (ht : (executeCommand s v).running = true) : SequenceKept s (executeCommand s v) := by
  revert ht
  unfold executeCommand
  split
  · exact fun ht => absurd ((doInit_ends_run s hr).symm.trans ht) Bool.false_ne_true
  · exact fun _ => doSetSequence_whenRunning s _ hr ▸ ⟨rfl, rfl, rfl⟩
  · exact fun _ => doStartOutput_whenRunning s _ hr ▸ ⟨rfl, rfl, rfl⟩
  all_goals exact fun _ => ⟨rfl, rfl, rfl⟩

theorem memWrite_sequenceKept (s : State) (addr : Nat) (v : Word) (h0 : addr ≠ 0) : SequenceKept s (memWrite s addr v) := by
  unfold memWrite
  rw [if_neg h0]
  split <;> exact ⟨rfl, rfl, rfl⟩

theorem Cause.sequenceKept {slot : Slot} {r t : State} (hcause : Cause slot r t) (hr : r.running = true)
    (ht : t.running = true) : SequenceKept r t := by
  cases hcause with
  | draw q ok _ heq => exact heq ▸ ⟨rfl, rfl, rfl⟩
  | reset _ heq => exact absurd ((heq ▸ State.powerOnReset_running r).symm.trans ht) Bool.false_ne_true
  | command v _ heq => exact heq ▸ executeCommand_sequenceKept r v hr (heq ▸ ht)
  | tick _ _ heq => exact heq ▸ ⟨tick_seq r, tick_seqCount r, tick_channel r⟩
  | service e _ _ heq => exact heq ▸ ⟨handler_seq r.takeEvent e, handler_seqCount r.takeEvent e, handler_channel r.takeEvent e⟩
  | read size off _ heq => exact heq ▸ ⟨rfl, rfl, rfl⟩
  | write off v _ h0 heq => exact heq ▸ memWrite_sequenceKept r _ v h0

/-- Settles O21: a step idles or has a cause, and a cause that leaves the run Running leaves its sequence and its channel. -/
theorem sequenceFixedWhileRunning : Obligations.SequenceFixedWhileRunning := by
  intro s t hstep hr ht
  rcases step_cause s t hstep with ⟨_, rfl⟩ | ⟨slot, rest, _, hcause⟩
  · exact ⟨rfl, rfl, rfl⟩
  · exact hcause.sequenceKept hr ht

/-! A buffer stored from end to end (70_reset_and_hazards.md R356): no byte of an earlier run is left in it. -/

theorem cellsFrom_append (base : Nat) (xs ys : List Byte) :
    cellsFrom base (xs ++ ys) = cellsFrom base xs ++ cellsFrom (base + xs.length) ys := by
  induction xs generalizing base with
  | nil => rfl
  | cons x xs ih => simp [cellsFrom, ih, show base + 1 + xs.length = base + (xs.length + 1) by omega]

/-- Two adjoining stores over all that the memory lists leave what they store. -/
theorem Memory.store_store_covering (m : Memory) (base : Nat) (xs ys : List Byte)
    (h : ∀ x ∈ m, base ≤ x.1 ∧ x.1 < base + (xs.length + ys.length)) :
    (m.store base xs).store (base + xs.length) ys = cellsFrom base (xs ++ ys) := by
  have hbelow : m.filter (fun x => decide (x.1 < base)) = [] := by
    simpa using fun x hx => (h x hx).1
  have hlow : (m.store base xs).filter (fun x => decide (x.1 < base + xs.length)) = cellsFrom base xs := by
    rw [Memory.store, hbelow, List.nil_append, List.filter_append, List.filter_eq_self.2, List.filter_eq_nil_iff.2,
      List.append_nil]
    · exact fun x hx => by simpa using (List.mem_filter.1 hx).2
    · exact fun x hx => by simpa using (cellsFrom_keys base xs x hx).2
  have hhigh : (m.store base xs).filter (fun x => decide (base + xs.length + ys.length ≤ x.1)) = [] := by
    refine List.filter_eq_nil_iff.2 fun x hx => ?_
    have hlt : x.1 < base + xs.length + ys.length := by
      rcases Memory.mem_store m base xs x hx with hm | hxs
      · have := h x hm
        omega
      · omega
    simpa using hlt
  rw [Memory.store, hlow, hhigh, List.append_nil, cellsFrom_append]

/-- An element all of whose bytes are stored does not depend on the power-on draws. -/
theorem State.bufAt_eq_of_mem_eq_cellsFrom {t u : State} {bytes : List Byte} (ht : t.mem = cellsFrom bufBase bytes)
    (hu : u.mem = cellsFrom bufBase bytes) {n : Nat} (hlen : bytes.length = 2 * n) {j : Nat} (hj : j < n) :
    t.bufAt j = u.bufAt j := by
  have hbyte : ∀ k, k < bytes.length → t.byteAt (bufBase + k) = u.byteAt (bufBase + k) := fun k hk => by
    simp only [State.byteAt, ht, hu, cellsFrom_get?, List.getElem?_eq_getElem hk, Option.getD_some]
  have hlow := hbyte (2 * j) (by omega)
  have hhigh := hbyte (2 * j + 1) (by omega)
  rw [State.bufAt, State.bufAt]
  exact congrArg₂ (· ++ ·) hhigh hlow

/-! Two runs side by side. -/

/-- `u` and `v` play the sequence of `s` from the same cursor. -/
def PlayAlike (s u v : State) : Prop := ∃ q k rem phase last, PlaysAt s u q k rem phase last ∧ PlaysAt s v q k rem phase last

namespace PlayAlike

variable {s u v : State}

theorem cursor_eq (h : PlayAlike s u v) :
    u.seqState = v.seqState ∧ u.stepIndex = v.stepIndex ∧ u.remain = v.remain ∧ u.phase = v.phase ∧
      u.lastHalf = v.lastHalf := by
  obtain ⟨q, k, r, p, l, hu, hv⟩ := h
  obtain ⟨huq, huk, hur, hup, hul⟩ := hu.cursor
  obtain ⟨hvq, hvk, hvr, hvp, hvl⟩ := hv.cursor
  exact ⟨huq.trans hvq.symm, BitVec.eq_of_toNat_eq (huk.trans hvk.symm), BitVec.eq_of_toNat_eq (hur.trans hvr.symm),
    hup.trans hvp.symm, hul.trans hvl.symm⟩

/-- A refill ends in one of the four ways of R236 or is the filler, and which one the cursor decides. -/
theorem refill (h : PlayAlike s u v) (hu : Armed u) (e : Half) :
    PlayAlike s (Machine.refill u e) (Machine.refill v e) := by
  obtain ⟨q, k, r, p, l, hpu, hpv⟩ := h
  have ⟨hcfg, _, hcount, hq, hk, hr, _⟩ := hpu
  rcases hu.active_or_finished with ha | hf
  · obtain rfl : q = .active := hq.symm.trans ha
    have hcases := Armed.remain_cases u hu ha
    obtain ⟨_, _, _, h4, _⟩ := hu
    obtain ⟨hlt, _⟩ := h4 ha
    rw [hcfg, hcount, hk, hr] at hcases
    rw [hcount, hk] at hlt
    rcases hcases with hn | ⟨hn, hmore⟩ | ⟨hn, hlast, hloop⟩ | ⟨hn, hlast, hhalt⟩
    · exact ⟨_, _, _, _, _, hpu.refill_stays e hn, hpv.refill_stays e hn⟩
    · exact ⟨_, _, _, _, _, hpu.refill_toNextStep e hn hmore, hpv.refill_toNextStep e hn hmore⟩
    · have hcountk : s.seqCount.toNat = k + 1 := by omega
      exact ⟨_, _, _, _, _, hpu.refill_loops e hn hcountk hloop, hpv.refill_loops e hn hcountk hloop⟩
    · have hcountk : s.seqCount.toNat = k + 1 := by omega
      exact ⟨_, _, _, _, _, hpu.refill_finishes e hn hcountk hhalt, hpv.refill_finishes e hn hcountk hhalt⟩
  · obtain rfl : q = .finished := hq.symm.trans hf
    exact ⟨_, _, _, _, _, hpu.refill_filler e, hpv.refill_filler e⟩

end PlayAlike

/-- The codes a refill stores: the current step's in the Active state, the filler in the Finished state (42_buffer_refill.md
R200, R201). -/
def State.refillCodes (s : State) : List Sample :=
  if s.seqState = .active then
    synth s.cfg (s.seqAt s.stepIndex.toNat).inc (s.seqAt s.stepIndex.toNat).amp s.phase s.cfg.half
  else List.replicate s.cfg.half (midSample s.cfg)

theorem State.refillCodes_length (s : State) : s.refillCodes.length = s.cfg.half := by
  unfold State.refillCodes
  split
  · exact synth_length ..
  · exact List.length_replicate

theorem refill_mem_of_armed (s : State) (hs : Armed s) (h : Half) :
    (refill s h).mem = s.mem.store (bufAddr (halfBase s.cfg h)) (s.refillCodes.flatMap sampleBytes) := by
  rcases hs.active_or_finished with ha | hf
  · rw [refill_mem_of_active s h ha, State.refillCodes, if_pos ha]
    rfl
  · rw [refill_of_finished s h hf, State.refillCodes, if_neg (by simp [hf])]
    rfl

theorem PlayAlike.refillCodes_eq {s u v : State} (h : PlayAlike s u v) : u.refillCodes = v.refillCodes := by
  obtain ⟨hq, hk, _, hp, _⟩ := h.cursor_eq
  obtain ⟨_, _, _, _, _, hu, hv⟩ := h
  simp only [State.refillCodes, State.seqAt, hq, hk, hp, hu.cfg, hv.cfg, hu.seq, hv.seq]

/-- The bytes that the two refills of a prefill store. -/
def prefillBytes (s : State) : List Byte :=
  s.refillCodes.flatMap sampleBytes ++ (refill s .first).refillCodes.flatMap sampleBytes

theorem refillCodes_bytes_length (s : State) : (s.refillCodes.flatMap sampleBytes).length = 2 * s.cfg.half := by
  rw [flatMap_sampleBytes_length, s.refillCodes_length]

theorem prefillBytes_length (s : State) (hp : s.cfg.paramsLegal = true) :
    (prefillBytes s).length = 2 * s.cfg.bufferSize := by
  rw [prefillBytes, List.length_append, refillCodes_bytes_length, refillCodes_bytes_length, refill_cfg,
    s.cfg.two_mul_half hp]
  omega

theorem Armed.mem_in_window {s : State} (hs : Armed s) :
    ∀ x ∈ s.mem, bufBase ≤ x.1 ∧ x.1 < bufBase + 2 * s.cfg.bufferSize := by
  obtain ⟨_, _, _, _, _, _, _, ⟨_, hwindow⟩, _⟩ := hs
  exact hwindow

/-- A prefill leaves in the buffer what its two refills store, and nothing else. -/
theorem prefill_mem_of_armed (s : State) (hs : Armed s) : (prefill s).mem = cellsFrom bufBase (prefillBytes s) := by
  have hlen := prefillBytes_length s (s.cfg.wellFormed_iff.1 hs.1).1
  have hbase : bufAddr (halfBase (refill s .first).cfg .second) = bufBase + (s.refillCodes.flatMap sampleBytes).length := by
    rw [refillCodes_bytes_length, refill_cfg]
    rfl
  rw [prefill, refill_mem_of_armed _ (refill_armed s .first hs).1, hbase, refill_mem_of_armed s hs]
  refine Memory.store_store_covering s.mem bufBase _ _ fun x hx => ?_
  rw [← List.length_append]
  exact hlen.symm ▸ hs.mem_in_window x hx

/-! The command. -/

@[simp] theorem startCommit_channel (s : State) (ch : Channel) : (startCommit s ch).channel = ch := prefill_channel _
@[simp] theorem startCommit_pending (s : State) (ch : Channel) : (startCommit s ch).pending = [] := prefill_pending _
@[simp] theorem startCommit_dmaPos (s : State) (ch : Channel) : (startCommit s ch).dmaPos = 0#16 := prefill_dmaPos _
@[simp] theorem startCommit_done (s : State) (ch : Channel) : (startCommit s ch).done = false := prefill_done _

/-- `START_OUTPUT` takes an Idle block to Running only by its commit (44_controller.md R270, R271). -/
theorem doStartOutput_of_started (s : State) (ch : Channel) (hr : s.running = false)
    (ht : (doStartOutput s ch).running = true) :
    s.seqState ≠ .notConfigured ∧ doStartOutput s ch = (startCommit (startDraws s) ch).ok opcStartOutput false := by
  have hidle : (doStartOutput s ch).running ≠ s.running := by simp [ht, hr]
  rcases doStartOutput_cases s ch with
    ⟨_, heq⟩ | ⟨_, _, heq⟩ | ⟨_, _, _, heq⟩ | ⟨_, _, _, _, heq⟩ | ⟨_, hq, _, _, heq⟩
  · exact absurd (heq ▸ rfl) hidle
  · exact absurd (heq ▸ rfl) hidle
  · exact absurd (heq ▸ rfl) hidle
  · exact absurd (heq ▸ rfl) hidle
  · exact ⟨hq, heq⟩

/-- The sequencers of two blocks with one configuration and one stored sequence start alike. -/
theorem seqStart_playAlike (s1 s2 : State) (ch : Channel) (hcfg : s1.cfg = s2.cfg) (hseq : s1.seq = s2.seq)
    (hcount : s1.seqCount = s2.seqCount) :
    PlayAlike s1 (seqStart (startArm (startDraws s1) ch)) (seqStart (startArm (startDraws s2) ch)) := by
  have hsamples : (s2.seqAt 0).samples.toNat = (s1.seqAt 0).samples.toNat := by simp only [State.seqAt, hseq]
  have hcursor := (seqStart_playsAt s2 ch).cursor
  rw [hsamples] at hcursor
  exact ⟨_, _, _, _, _, seqStart_playsAt s1 ch, ⟨hcfg.symm, hseq.symm, hcount.symm, hcursor⟩⟩

/-- Settles O40: the two prefills play alike from step 0, and between them they store the whole buffer. -/
theorem startDependsOnSequenceOnly : Obligations.StartDependsOnSequenceOnly := by
  intro s1 s2 t1 t2 ch hs1 hs2 hcfg hseq hcount hr1 hr2 he1 he2 ht1 ht2
  obtain rfl : doStartOutput s1 ch = t1 := Host.Outcome.next.inj he1
  obtain rfl : doStartOutput s2 ch = t2 := Host.Outcome.next.inj he2
  obtain ⟨hq1, heq1⟩ := doStartOutput_of_started s1 ch hr1 ht1
  obtain ⟨hq2, heq2⟩ := doStartOutput_of_started s2 ch hr2 ht2
  have harmed1 := seqStart_startArm_armed (startDraws s1) ch hs1 hq1
  have harmed2 := seqStart_startArm_armed (startDraws s2) ch hs2 hq2
  have hstart := seqStart_playAlike s1 s2 ch hcfg hseq hcount
  have hfirst := hstart.refill harmed1 .first
  obtain ⟨hq, hk, hrem, hphase, hlast⟩ := (hfirst.refill (refill_armed _ .first harmed1).1 .second).cursor_eq
  have hmem1 := prefill_mem_of_armed _ harmed1
  have hmem2 := prefill_mem_of_armed _ harmed2
  rw [prefillBytes, ← hstart.refillCodes_eq, ← hfirst.refillCodes_eq] at hmem2
  have hlen := prefillBytes_length (seqStart (startArm (startDraws s1) ch)) (s1.cfg.wellFormed_iff.1 hs1.1).1
  rw [heq1, heq2]
  exact ⟨(startCommit_channel _ ch).trans (startCommit_channel _ ch).symm, hq, hk, hrem, hphase,
    (startCommit_pending _ ch).trans (startCommit_pending _ ch).symm,
    (startCommit_dmaPos _ ch).trans (startCommit_dmaPos _ ch).symm, hlast,
    (startCommit_done _ ch).trans (startCommit_done _ ch).symm,
    fun j hj => State.bufAt_eq_of_mem_eq_cellsFrom hmem1 hmem2 hlen hj, hmem1.trans hmem2.symm⟩

end Sys2Proof.Machine
end
